-- ==== Sys2Proof/Word.lean ====
section
/-! DEFINITION. The words of the block's ports and the two fixed sets of names every layer uses. -/

namespace Sys2Proof

/-- A command word: 40 bits, always presented whole (30_encoding.md R80). -/
abbrev CmdWord := BitVec 40

/-- A byte of a MIDI message (44_midi_event_decoder.md R180). -/
abbrev Byte := BitVec 8

/-- A word on the response port, and one channel of an audio frame (R80, R82, R83). -/
abbrev PortWord := BitVec 32

/-- The three oscillator instances and their fixed roles (00_scope.md R3). -/
inductive OscId where
  /-- identifier 0, the intensity modulator -/
  | lfo
  /-- identifier 1, the FM modulator -/
  | mod
  /-- identifier 2, the carrier, whose level is the audible signal -/
  | car
  deriving DecidableEq, Repr

/-- The four shapes an oscillator's `wave` register can name (10_state.md R23). -/
inductive Waveform where
  | sine
  | square
  | sawtooth
  | triangle
  deriving DecidableEq, Repr

end Sys2Proof
end

