-- ==== Sys2Proof/Syntax.lean ====
section
/-! DEFINITION. The commands: one constructor of `Instr` per row of the opcode table (30_encoding.md R86, R87).
An operand is the field itself (R87); it is read signed or unsigned where the command uses it. -/

namespace Sys2Proof

/-- The fourteen commands of the opcode map (R86). -/
inductive Instr where
  /-- `NOP` (R200) -/
  | nop
  /-- `OSC_SET_WAVEFORM osc, w` (R124) -/
  | oscSetWaveform (osc : OscId) (w : BitVec 32)
  /-- `OSC_SET_FREQ osc, hz` (R125) -/
  | oscSetFreq (osc : OscId) (hz : BitVec 32)
  /-- `OSC_SET_DETUNE osc, d` (R126) -/
  | oscSetDetune (osc : OscId) (d : BitVec 32)
  /-- `OSC_SET_MODDEPTH osc, x` (R127) -/
  | oscSetModdepth (osc : OscId) (x : BitVec 32)
  /-- `OSC_TICK osc` (R128) -/
  | oscTick (osc : OscId)
  /-- `OSC_READ_LEVEL osc` (R131) -/
  | oscReadLevel (osc : OscId)
  /-- `SET_POT paramId, raw` (R153) -/
  | setPot (paramId : BitVec 16) (raw : BitVec 16)
  /-- `NOTE_ON key` (R157) -/
  | noteOn (key : BitVec 32)
  /-- `NOTE_OFF key` (R158) -/
  | noteOff (key : BitVec 32)
  /-- `RENDER` (R159) -/
  | render
  /-- `MIDI_BYTE b` (R182) -/
  | midiByte (b : Byte)
  /-- `MIDI_PACKET b0, b1, b2` (R186) -/
  | midiPacket (b0 : Byte) (b1 : Byte) (b2 : Byte)
  /-- `STATUS` (R201) -/
  | status
  deriving DecidableEq, Repr

/-- The mnemonics of the opcode map, without operands (R86). -/
inductive Mnemonic where
  | nop
  | oscSetWaveform
  | oscSetFreq
  | oscSetDetune
  | oscSetModdepth
  | oscTick
  | oscReadLevel
  | setPot
  | noteOn
  | noteOff
  | render
  | midiByte
  | midiPacket
  | status
  deriving DecidableEq, Repr

/-- The mnemonic of a command. -/
def Instr.mnemonic : Instr → Mnemonic
  | .nop => .nop
  | .oscSetWaveform _ _ => .oscSetWaveform
  | .oscSetFreq _ _ => .oscSetFreq
  | .oscSetDetune _ _ => .oscSetDetune
  | .oscSetModdepth _ _ => .oscSetModdepth
  | .oscTick _ => .oscTick
  | .oscReadLevel _ => .oscReadLevel
  | .setPot _ _ => .setPot
  | .noteOn _ => .noteOn
  | .noteOff _ => .noteOff
  | .render => .render
  | .midiByte _ => .midiByte
  | .midiPacket _ _ _ => .midiPacket
  | .status => .status

/-- The seven formats (R85). -/
inductive Format where
  | N
  | T
  | V
  | P
  | K
  | B
  | M
  deriving DecidableEq, Repr

/-- The reasons R88 gives for calling a word illegal, in the order of its checks (R89). -/
inductive IllegalWord where
  /-- `cmd[33:32]` is not `00`: check (1) -/
  | zNotZero
  /-- `OPC` is 0x7 or 0xF: check (2) -/
  | reservedOpcode
  /-- `OSC` is 3 in format V or T, or not `00` in another format: check (3) -/
  | oscField
  /-- a one in a must-be-zero bit of `ARG`: check (4) -/
  | argNotZero
  deriving DecidableEq, Repr

end Sys2Proof
end

