-- ==== Sys2Proof/WellFormed.lean ====
section
/-! DEFINITION. Which command words are well formed, in the form of the opcode map's `match` and `mask` columns (R86).
An `Instr` needs no check of its own: its operands are the fields of R85 and an oscillator is one of three names, so
every term of `Instr` is a legal command. What can be ill formed is a word, and the map decides that here, apart from
the decoder, whose ordered checks (R88) are in Decode.lean. -/

namespace Sys2Proof

/-- One row of the opcode map (R86): a word `w` matches when `w and mask = pattern` and, in the formats V and T
(`selectsOsc`), `cmd[35:34]` is not 3. -/
structure MapRow where
  mnemonic : Mnemonic
  pattern : CmdWord
  mask : CmdWord
  selectsOsc : Bool
  deriving DecidableEq, Repr

/-- The opcode map, row by row as R86 prints it. -/
def opcodeMap : List MapRow :=
  [ ⟨.nop, 0x0000000000, 0xFFFFFFFFFF, false⟩,
    ⟨.oscSetWaveform, 0x1000000000, 0xF300000000, true⟩,
    ⟨.oscSetFreq, 0x2000000000, 0xF300000000, true⟩,
    ⟨.oscSetDetune, 0x3000000000, 0xF300000000, true⟩,
    ⟨.oscSetModdepth, 0x4000000000, 0xF300000000, true⟩,
    ⟨.oscTick, 0x5000000000, 0xF3FFFFFFFF, true⟩,
    ⟨.oscReadLevel, 0x6000000000, 0xF3FFFFFFFF, true⟩,
    ⟨.setPot, 0x8000000000, 0xFF00000000, false⟩,
    ⟨.noteOn, 0x9000000000, 0xFF00000000, false⟩,
    ⟨.noteOff, 0xA000000000, 0xFF00000000, false⟩,
    ⟨.render, 0xB000000000, 0xFFFFFFFFFF, false⟩,
    ⟨.midiByte, 0xC000000000, 0xFFFFFFFF00, false⟩,
    ⟨.midiPacket, 0xD000000000, 0xFFFF000000, false⟩,
    ⟨.status, 0xE000000000, 0xFFFFFFFFFF, false⟩ ]

/-- The word matches the row (R86). -/
def MapRow.accepts (r : MapRow) (w : CmdWord) : Bool :=
  (w &&& r.mask == r.pattern) && (!r.selectsOsc || w.extractLsb' 34 2 != 3)

/-- The word matches some row of the map: it is a command (R86, R89). -/
def wellFormedWord (w : CmdWord) : Bool :=
  opcodeMap.any fun r => r.accepts w

end Sys2Proof
end

