-- ==== Sys2Proof/Decode.lean ====
section
/-! DEFINITION. The decoder, total on 40-bit words (30_encoding.md R84 to R89), and after it the encoder. Both read the
same two tables, `Mnemonic.opcode` and `Mnemonic.format`. -/

namespace Sys2Proof

/-- `OPC`, `cmd[39:36]` (R84). -/
def opcField (w : CmdWord) : BitVec 4 := w.extractLsb' 36 4

/-- `OSC`, `cmd[35:34]` (R84). -/
def oscField (w : CmdWord) : BitVec 2 := w.extractLsb' 34 2

/-- `Z`, `cmd[33:32]` (R84). -/
def zField (w : CmdWord) : BitVec 2 := w.extractLsb' 32 2

/-- `ARG`, `cmd[31:0]` (R84). -/
def argField (w : CmdWord) : BitVec 32 := w.extractLsb' 0 32

/-- The opcode numbers of R86. -/
def Mnemonic.opcode : Mnemonic → BitVec 4
  | .nop => 0x0
  | .oscSetWaveform => 0x1
  | .oscSetFreq => 0x2
  | .oscSetDetune => 0x3
  | .oscSetModdepth => 0x4
  | .oscTick => 0x5
  | .oscReadLevel => 0x6
  | .setPot => 0x8
  | .noteOn => 0x9
  | .noteOff => 0xA
  | .render => 0xB
  | .midiByte => 0xC
  | .midiPacket => 0xD
  | .status => 0xE

/-- The format column of R86. -/
def Mnemonic.format : Mnemonic → Format
  | .nop | .render | .status => .N
  | .oscTick | .oscReadLevel => .T
  | .oscSetWaveform | .oscSetFreq | .oscSetDetune | .oscSetModdepth => .V
  | .setPot => .P
  | .noteOn | .noteOff => .K
  | .midiByte => .B
  | .midiPacket => .M

/-- Every mnemonic, in the order of R86. -/
def Mnemonic.all : List Mnemonic :=
  [.nop, .oscSetWaveform, .oscSetFreq, .oscSetDetune, .oscSetModdepth, .oscTick, .oscReadLevel,
   .setPot, .noteOn, .noteOff, .render, .midiByte, .midiPacket, .status]

/-- The row that `OPC` selects; none for the reserved 0x7 and 0xF (R86, check (2) of R88). -/
def Mnemonic.ofOpcode (opc : BitVec 4) : Option Mnemonic :=
  Mnemonic.all.find? fun m => m.opcode == opc

/-- The `ARG` bits a format's row shows as `0` (R85). -/
def Format.mustBeZero : Format → BitVec 32
  | .N | .T => 0xFFFFFFFF
  | .V | .P | .K => 0x00000000
  | .B => 0xFFFFFF00
  | .M => 0xFF000000

/-- `OSC` selects an oscillator only in the formats V and T (R84). -/
def Format.selectsOsc : Format → Bool
  | .T | .V => true
  | .N | .P | .K | .B | .M => false

/-- Oscillator identifiers 0, 1, 2; 3 is illegal (R84). -/
def OscId.ofSelect (s : BitVec 2) : Option OscId :=
  match s.toNat with
  | 0 => some .lfo
  | 1 => some .mod
  | 2 => some .car
  | _ => none

/-- The identifier of an oscillator (R3). -/
def OscId.select : OscId → BitVec 2
  | .lfo => 0
  | .mod => 1
  | .car => 2

/-- Check (3) of R88: the oscillator of a format that selects one; in every other format `OSC` must be `00`, and
then the answer names no operand. -/
def Format.oscOperand (f : Format) (osc : BitVec 2) : Option OscId :=
  match f.selectsOsc with
  | true => OscId.ofSelect osc
  | false => if osc = 0 then some .lfo else none

/-- The command of a row with the operands of R87; `i` counts only in the formats V and T. -/
def Mnemonic.withOperands (m : Mnemonic) (i : OscId) (arg : BitVec 32) : Instr :=
  match m with
  | .nop => .nop
  | .oscSetWaveform => .oscSetWaveform i arg
  | .oscSetFreq => .oscSetFreq i arg
  | .oscSetDetune => .oscSetDetune i arg
  | .oscSetModdepth => .oscSetModdepth i arg
  | .oscTick => .oscTick i
  | .oscReadLevel => .oscReadLevel i
  | .setPot => .setPot (arg.extractLsb' 16 16) (arg.extractLsb' 0 16)
  | .noteOn => .noteOn arg
  | .noteOff => .noteOff arg
  | .render => .render
  | .midiByte => .midiByte (arg.extractLsb' 0 8)
  | .midiPacket => .midiPacket (arg.extractLsb' 16 8) (arg.extractLsb' 8 8) (arg.extractLsb' 0 8)
  | .status => .status

/-- Decoding, the five ordered checks of R88; an illegal word is rejected by the name of the check it fails. -/
def decode (w : CmdWord) : Except IllegalWord Instr :=
  if zField w ≠ 0 then .error .zNotZero
  else match Mnemonic.ofOpcode (opcField w) with
    | none => .error .reservedOpcode
    | some m =>
      match m.format.oscOperand (oscField w) with
      | none => .error .oscField
      | some i =>
        if argField w &&& m.format.mustBeZero ≠ 0 then .error .argNotZero
        else .ok (m.withOperands i (argField w))

/-- The instruction of a decoder's answer, if it gave one. -/
def decoded : Except IllegalWord Instr → Option Instr
  | .ok i => some i
  | .error _ => none

/-- The `OSC` field of a command: `00` in the formats that select no oscillator (R84, R85). -/
def Instr.oscSelect : Instr → BitVec 2
  | .oscSetWaveform i _ | .oscSetFreq i _ | .oscSetDetune i _ | .oscSetModdepth i _ | .oscTick i
  | .oscReadLevel i => i.select
  | .nop | .setPot _ _ | .noteOn _ | .noteOff _ | .render | .midiByte _ | .midiPacket _ _ _
  | .status => 0

/-- The `ARG` field of a command (R85). -/
def Instr.arg : Instr → BitVec 32
  | .nop | .oscTick _ | .oscReadLevel _ | .render | .status => 0
  | .oscSetWaveform _ v | .oscSetFreq _ v | .oscSetDetune _ v | .oscSetModdepth _ v => v
  | .setPot paramId raw => paramId ++ raw
  | .noteOn key | .noteOff key => key
  | .midiByte b => (0 : BitVec 24) ++ b
  | .midiPacket b0 b1 b2 => (0 : BitVec 8) ++ (b0 ++ (b1 ++ b2))

/-- The word of a command: `OPC ++ OSC ++ Z ++ ARG` with `Z = 00` (R84). -/
def encode (i : Instr) : CmdWord :=
  i.mnemonic.opcode ++ (i.oscSelect ++ ((0 : BitVec 2) ++ i.arg))

/-- The command word whose low `nbits` bits are those of `w`, every higher bit zero. -/
def tableWord (nbits w : Nat) : CmdWord := BitVec.ofNat 40 (w % 2 ^ nbits)

/-- The instruction the decoder reads from a row of the opcode table. A command is one 40-bit word (R91), so nothing
longer is one. -/
def decodeTableWord (nbits w : Nat) : Option Instr :=
  if nbits ≤ 40 then decoded (decode (tableWord nbits w)) else none

end Sys2Proof
end

