-- ==== Sys2Proof/Config.lean ====
section
/-! DEFINITION. What an integrator fixes before reset is released (the record `Cfg`, 00_scope.md section 4), and the
model's one free value. -/

namespace Sys2Proof

/-- `Cfg.ROUTE`: for each oscillator, the oscillator that modulates it, or none (R12, R140). Self-reference and
cycles are allowed. -/
structure Route where
  lfo : Option OscId
  mod : Option OscId
  car : Option OscId
  deriving DecidableEq, Repr

/-- The configuration record `Cfg` (R7, R9 to R12). `MOD_SCALE` and the tables are not parameters (R8, R13). -/
structure Cfg where
  /-- `SAMPLE_RATE`, hertz (R7) -/
  sampleRate : Nat
  /-- `OUT_LOW` (R9) -/
  outLow : Int
  /-- `OUT_NULL`, the silence level (R9) -/
  outNull : Int
  /-- `OUT_HIGH` (R9) -/
  outHigh : Int
  /-- `BUF_FRAMES`, stereo frames in one audio buffer (R10) -/
  bufFrames : Nat
  /-- `RATE_LO`, FREQ format (R11) -/
  rateLo : Nat
  /-- `RATE_HI`, FREQ format (R11) -/
  rateHi : Nat
  /-- `ROUTE` (R12) -/
  route : Route
  deriving DecidableEq, Repr

/-- The constraints the spec puts on a configuration: R7, R9, R10, R11 (every `ROUTE` is allowed, R12). -/
structure Cfg.Valid (c : Cfg) : Prop where
  sampleRate_pos : 1 ≤ c.sampleRate
  sampleRate_le : c.sampleRate ≤ 262143
  outLow_ge : -2 ^ 31 ≤ c.outLow
  outLow_le_null : c.outLow ≤ c.outNull
  outNull_le_high : c.outNull ≤ c.outHigh
  outHigh_lt : c.outHigh < 2 ^ 31
  bufFrames_pos : 1 ≤ c.bufFrames
  bufFrames_le : c.bufFrames ≤ 2 ^ 32 - 1
  rateLo_le_hi : c.rateLo ≤ c.rateHi
  rateHi_lt : c.rateHi < 2 ^ 31

/-- The routing the spec takes by default: the chain LFO, MOD, CAR (R12). -/
def Route.default : Route :=
  { lfo := none, mod := some .lfo, car := some .mod }

/-- The spec's defaults and, where it gives none, the values of its test vectors (R7, R9 to R12, 95_test_vectors.md).
DESIGN CHOICE (log 2, unsafe): these are OPEN parameters; nothing in the model but `State.reset` uses this record. -/
def Cfg.default : Cfg :=
  { sampleRate := 48000, outLow := -32768, outNull := 0, outHigh := 32767, bufFrames := 4,
    rateLo := 1024, rateHi := 163840, route := Route.default }

/-- The four read-only tables (20_memory.md R61 to R64). -/
inductive Rom where
  | sine
  | detune
  | freq
  | ratio
  deriving DecidableEq, Repr

/-- FREE VALUE: what `RomRead` gives outside a table, where R18 does not define it (log 6, safe). -/
opaque Config.romOutside : Rom → Int → Int

end Sys2Proof
end

