-- ==== Sys2Proof/Machine/Roms.lean ====
section
/-! DEFINITION. The four read-only tables (20_memory.md R61 to R64) and the one way they are read, `RomRead` (R18). -/

namespace Sys2Proof.Machine

/-- Entries 0 to 59 of `SINE_ROM (R107)`. -/
def sineRomPart0 : List Int :=
  [0, 1144, 2287, 3430, 4572, 5712, 6850, 7987, 9121, 10252,
   11380, 12505, 13626, 14742, 15855, 16962, 18064, 19161, 20252, 21336,
   22415, 23486, 24550, 25607, 26656, 27697, 28729, 29753, 30767, 31772,
   32768, 33754, 34729, 35693, 36647, 37590, 38521, 39441, 40348, 41243,
   42126, 42995, 43852, 44695, 45525, 46341, 47143, 47930, 48703, 49461,
   50203, 50931, 51643, 52339, 53020, 53684, 54332, 54963, 55578, 56175]

/-- Entries 60 to 119 of `SINE_ROM (R107)`. -/
def sineRomPart1 : List Int :=
  [56756, 57319, 57865, 58393, 58903, 59396, 59870, 60326, 60764, 61183,
   61584, 61966, 62328, 62672, 62997, 63303, 63589, 63856, 64104, 64332,
   64540, 64729, 64898, 65048, 65177, 65287, 65376, 65446, 65496, 65526,
   65536, 65526, 65496, 65446, 65376, 65287, 65177, 65048, 64898, 64729,
   64540, 64332, 64104, 63856, 63589, 63303, 62997, 62672, 62328, 61966,
   61584, 61183, 60764, 60326, 59870, 59396, 58903, 58393, 57865, 57319]

/-- Entries 120 to 179 of `SINE_ROM (R107)`. -/
def sineRomPart2 : List Int :=
  [56756, 56175, 55578, 54963, 54332, 53684, 53020, 52339, 51643, 50931,
   50203, 49461, 48703, 47930, 47143, 46341, 45525, 44695, 43852, 42995,
   42126, 41243, 40348, 39441, 38521, 37590, 36647, 35693, 34729, 33754,
   32768, 31772, 30767, 29753, 28729, 27697, 26656, 25607, 24550, 23486,
   22415, 21336, 20252, 19161, 18064, 16962, 15855, 14742, 13626, 12505,
   11380, 10252, 9121, 7987, 6850, 5712, 4572, 3430, 2287, 1144]

/-- Entries 180 to 239 of `SINE_ROM (R107)`. -/
def sineRomPart3 : List Int :=
  [0, -1144, -2287, -3430, -4572, -5712, -6850, -7987, -9121, -10252,
   -11380, -12505, -13626, -14742, -15855, -16962, -18064, -19161, -20252, -21336,
   -22415, -23486, -24550, -25607, -26656, -27697, -28729, -29753, -30767, -31772,
   -32768, -33754, -34729, -35693, -36647, -37590, -38521, -39441, -40348, -41243,
   -42126, -42995, -43852, -44695, -45525, -46341, -47143, -47930, -48703, -49461,
   -50203, -50931, -51643, -52339, -53020, -53684, -54332, -54963, -55578, -56175]

/-- Entries 240 to 299 of `SINE_ROM (R107)`. -/
def sineRomPart4 : List Int :=
  [-56756, -57319, -57865, -58393, -58903, -59396, -59870, -60326, -60764, -61183,
   -61584, -61966, -62328, -62672, -62997, -63303, -63589, -63856, -64104, -64332,
   -64540, -64729, -64898, -65048, -65177, -65287, -65376, -65446, -65496, -65526,
   -65536, -65526, -65496, -65446, -65376, -65287, -65177, -65048, -64898, -64729,
   -64540, -64332, -64104, -63856, -63589, -63303, -62997, -62672, -62328, -61966,
   -61584, -61183, -60764, -60326, -59870, -59396, -58903, -58393, -57865, -57319]

/-- Entries 300 to 359 of `SINE_ROM (R107)`. -/
def sineRomPart5 : List Int :=
  [-56756, -56175, -55578, -54963, -54332, -53684, -53020, -52339, -51643, -50931,
   -50203, -49461, -48703, -47930, -47143, -46341, -45525, -44695, -43852, -42995,
   -42126, -41243, -40348, -39441, -38521, -37590, -36647, -35693, -34729, -33754,
   -32768, -31772, -30767, -29753, -28729, -27697, -26656, -25607, -24550, -23486,
   -22415, -21336, -20252, -19161, -18064, -16962, -15855, -14742, -13626, -12505,
   -11380, -10252, -9121, -7987, -6850, -5712, -4572, -3430, -2287, -1144]

/-- `SINE_ROM`, 360 entries in LEVEL format, as printed in R107. -/
def sineRom : List Int :=
  sineRomPart0 ++ sineRomPart1 ++ sineRomPart2 ++ sineRomPart3 ++ sineRomPart4 ++ sineRomPart5

/-- Entries 0 to 63 of `DETUNE_ROM (R122)`. -/
def detuneRomPart0 : List Int :=
  [61858, 61886, 61914, 61942, 61970, 61997, 62025, 62053,
   62081, 62109, 62138, 62166, 62194, 62222, 62250, 62278,
   62306, 62334, 62362, 62390, 62419, 62447, 62475, 62503,
   62531, 62560, 62588, 62616, 62644, 62673, 62701, 62729,
   62757, 62786, 62814, 62843, 62871, 62899, 62928, 62956,
   62984, 63013, 63041, 63070, 63098, 63127, 63155, 63184,
   63212, 63241, 63269, 63298, 63326, 63355, 63384, 63412,
   63441, 63470, 63498, 63527, 63555, 63584, 63613, 63642]

/-- Entries 64 to 127 of `DETUNE_ROM (R122)`. -/
def detuneRomPart1 : List Int :=
  [63670, 63699, 63728, 63757, 63785, 63814, 63843, 63872,
   63901, 63929, 63958, 63987, 64016, 64045, 64074, 64103,
   64132, 64161, 64190, 64219, 64248, 64277, 64306, 64335,
   64364, 64393, 64422, 64451, 64480, 64509, 64538, 64567,
   64596, 64626, 64655, 64684, 64713, 64742, 64772, 64801,
   64830, 64859, 64889, 64918, 64947, 64976, 65006, 65035,
   65065, 65094, 65123, 65153, 65182, 65211, 65241, 65270,
   65300, 65329, 65359, 65388, 65418, 65447, 65477, 65506]

/-- Entries 128 to 191 of `DETUNE_ROM (R122)`. -/
def detuneRomPart2 : List Int :=
  [65536, 65566, 65595, 65625, 65654, 65684, 65714, 65743,
   65773, 65803, 65832, 65862, 65892, 65922, 65951, 65981,
   66011, 66041, 66071, 66100, 66130, 66160, 66190, 66220,
   66250, 66280, 66309, 66339, 66369, 66399, 66429, 66459,
   66489, 66519, 66549, 66579, 66609, 66639, 66670, 66700,
   66730, 66760, 66790, 66820, 66850, 66880, 66911, 66941,
   66971, 67001, 67032, 67062, 67092, 67122, 67153, 67183,
   67213, 67244, 67274, 67304, 67335, 67365, 67395, 67426]

/-- Entries 192 to 255 of `DETUNE_ROM (R122)`. -/
def detuneRomPart3 : List Int :=
  [67456, 67487, 67517, 67548, 67578, 67609, 67639, 67670,
   67700, 67731, 67761, 67792, 67823, 67853, 67884, 67915,
   67945, 67976, 68007, 68037, 68068, 68099, 68129, 68160,
   68191, 68222, 68252, 68283, 68314, 68345, 68376, 68407,
   68438, 68468, 68499, 68530, 68561, 68592, 68623, 68654,
   68685, 68716, 68747, 68778, 68809, 68840, 68871, 68902,
   68933, 68965, 68996, 69027, 69058, 69089, 69120, 69152,
   69183, 69214, 69245, 69276, 69308, 69339, 69370, 69402]

/-- Entries 256 to 256 of `DETUNE_ROM (R122)`. -/
def detuneRomPart4 : List Int :=
  [69433]

/-- `DETUNE_ROM`, 257 ratios scaled by 65536, entry `k` for detune code `k - 128`, as printed in R122. -/
def detuneRom : List Int :=
  detuneRomPart0 ++ detuneRomPart1 ++ detuneRomPart2 ++ detuneRomPart3 ++ detuneRomPart4

/-- Entries 0 to 35 of `FREQ_ROM (R151)`. -/
def freqRomPart0 : List Int :=
  [66976, 70959, 75178, 79649, 84385, 89402,
   94719, 100351, 106318, 112640, 119338, 126434,
   133952, 141918, 150356, 159297, 168769, 178805,
   189437, 200702, 212636, 225280, 238676, 252868,
   267905, 283835, 300713, 318594, 337539, 357610,
   378874, 401403, 425272, 450560, 477352, 505737]

/-- Entries 36 to 71 of `FREQ_ROM (R151)`. -/
def freqRomPart1 : List Int :=
  [535809, 567670, 601426, 637188, 675077, 715220,
   757749, 802807, 850544, 901120, 954704, 1011473,
   1071618, 1135340, 1202851, 1274376, 1350155, 1430439,
   1515497, 1605614, 1701088, 1802240, 1909407, 2022946,
   2143237, 2270680, 2405702, 2548753, 2700309, 2860878,
   3030995, 3211227, 3402177, 3604480, 3818814, 4045893]

/-- Entries 72 to 107 of `FREQ_ROM (R151)`. -/
def freqRomPart2 : List Int :=
  [4286474, 4541361, 4811404, 5097505, 5400619, 5721756,
   6061989, 6422454, 6804353, 7208961, 7637628, 8091785,
   8572948, 9082722, 9622808, 10195010, 10801237, 11443512,
   12123979, 12844908, 13608706, 14417922, 15275256, 16183570,
   17145895, 18165443, 19245617, 20390021, 21602474, 22887024,
   24247958, 25689816, 27217412, 28835844, 30550512, 32367140]

/-- Entries 108 to 127 of `FREQ_ROM (R151)`. -/
def freqRomPart3 : List Int :=
  [34291791, 36330887, 38491234, 40780041, 43204949, 45774049,
   48495915, 51379633, 54434825, 57671688, 61101025, 64734281,
   68583581, 72661773, 76982467, 81560083, 86409898, 91548098,
   96991831, 102759265]

/-- `FREQ_ROM`, 128 key frequencies in FREQ format, as printed in R151. -/
def freqRom : List Int :=
  freqRomPart0 ++ freqRomPart1 ++ freqRomPart2 ++ freqRomPart3

/-- `RATIO_ROM`, the eight FM ratios of R152. -/
def ratioRom : List Int := [1, 2, 3, 5, 7, 9, 11, 13]

/-- What each table holds (R61 to R64). -/
def romContents : Rom → List Int
  | .sine => sineRom
  | .detune => detuneRom
  | .freq => freqRom
  | .ratio => ratioRom

/-- `RomRead(T, k)`, defined by R18 only for `k` inside the table.
DESIGN CHOICE (log 6, safe): outside the table the value is free, `Config.romOutside`; R65 says it is never used. -/
def romRead (T : Rom) (k : Int) : Int :=
  match k with
  | .ofNat n => ((romContents T)[n]?).getD (Config.romOutside T k)
  | .negSucc _ => Config.romOutside T k

end Sys2Proof.Machine
end

