-- ==== Sys2Proof/Machine/State.lean ====
section
/-! DEFINITION. The state of the block (10_state.md) as plain data, its value after reset (R41), and the outcomes a
step could have beside a next state. -/

namespace Sys2Proof.Machine

/-- One oscillator register set (R22 to R28). -/
structure Osc where
  /-- `osc[i].wave` (R23) -/
  wave : Waveform
  /-- `osc[i].base`, FREQ format (R24) -/
  base : BitVec 31
  /-- `osc[i].det`, two's complement, DETUNE format (R25) -/
  det : BitVec 9
  /-- `osc[i].depth`, DEPTH format (R26) -/
  depth : BitVec 17
  /-- `osc[i].phase`, ticks inside the current period (R27) -/
  phase : BitVec 32
  /-- `osc[i].level`, two's complement, LEVEL format (R28) -/
  level : BitVec 18
  deriving DecidableEq, Repr

/-- The oscillator register file: three sets, no banks, no aliases (R22). -/
structure OscFile where
  lfo : Osc
  mod : Osc
  car : Osc
  deriving DecidableEq, Repr

/-- One copy of the four control values (R32). -/
structure Controls where
  /-- waveform selector (R32) -/
  wave : Waveform
  /-- FM intensity, DEPTH format (R32) -/
  intensity : BitVec 17
  /-- modulation rate, FREQ format (R32) -/
  rate : BitVec 31
  /-- FM ratio index into `RATIO_ROM` (R32) -/
  ratioIdx : BitVec 3
  deriving DecidableEq, Repr

/-- The voice registers (R30 to R35). -/
structure Voice where
  /-- a note is held (R30) -/
  keyActive : Bool
  /-- the held key; no meaning while `keyActive` is 0 (R30) -/
  key : BitVec 7
  /-- target frequency, FREQ format (R31) -/
  tfreq : BitVec 31
  /-- pending controls, the control side's copy (R33) -/
  pend : Controls
  /-- active controls, the audio side's copy (R34) -/
  act : Controls
  /-- index of the next frame inside the current audio buffer (R35) -/
  frameCtr : BitVec 32
  deriving DecidableEq, Repr

/-- The decoder's states; code 3 is never written and never held, so it has no name (R36, log 8). -/
inductive MidiState where
  | awaitingStatus
  | awaitingData1
  | awaitingData2
  deriving DecidableEq, Repr

/-- The MIDI decoder registers (R36, R37). -/
structure Midi where
  /-- `midi.state` (R36) -/
  state : MidiState
  /-- status byte of the partial message (R37) -/
  status : Byte
  /-- first data byte of the partial message (R37) -/
  data1 : Byte
  deriving DecidableEq, Repr

/-- The two sticky error flags (R38). -/
structure Err where
  illegal : Bool
  contract : Bool
  deriving DecidableEq, Repr

/-- The two conditions a command can raise (R18, R210). -/
inductive Condition where
  /-- the word matches no row of the opcode map (R211) -/
  | illegalCommand
  /-- a setter's operand is outside its domain (R212) -/
  | contractViolation
  deriving DecidableEq, Repr

/-- What one step puts on the output ports: nothing, a response word, or an audio frame (R81 to R83). -/
inductive Output where
  /-- `rsp_valid` and `aud_valid` low -/
  | none
  /-- `rsp_valid` high for one cycle with `rsp = v` (R82) -/
  | rsp (v : PortWord)
  /-- `aud_valid` high for one cycle with the frame `(l, r, last)` (R83) -/
  | aud (l : PortWord) (r : PortWord) (last : Bool)
  deriving DecidableEq, Repr

/-- What the host does to the block at one step: hold `rst` (R240), or present a command word (R81). -/
inductive HostInput where
  | rst
  | cmd (w : CmdWord)
  deriving DecidableEq, Repr

/-- The machine. `osc`, `voice`, `midi`, `err` are the spec's record `State` (R20). `cfg`, `cmdPort` and `out` are the
model's own: the session's fixed configuration (log 1), what the host has yet to present, oldest first (log 3), and
what the last step put on the output ports (log 4). -/
structure State where
  cfg : Cfg
  osc : OscFile
  voice : Voice
  midi : Midi
  err : Err
  cmdPort : List HostInput
  out : Output
  deriving DecidableEq, Repr

/-- Reasons to stop with a fault. NONE: no command stops the block, "from every state and for every 40-bit word,
`Step` yields a next state" (R220); an illegal word and a contract violation are recorded in a flag and the machine
goes on (R221). Nobody raises a fault, which is what the spec says, so nothing here is unsafe. -/
inductive Fault where
  deriving DecidableEq, Repr

/-- Reasons to refuse. -/
inductive Refusal where
  /-- Raised only by an arm of `exec` whose instruction has no meaning in the model yet. Safe: the run stops. No arm
  raises it: every command is modelled, and the spec has no refusal (R221). -/
  | notModelled (mnemonic : String)
  deriving DecidableEq, Repr

/-- An oscillator after reset (R41). -/
def Osc.reset : Osc :=
  { wave := .sine, base := 0, det := 0, depth := 0, phase := 0, level := 0 }

/-- One copy of the controls after reset: what `SET_POT` stores for raw 0 on each channel (R33, R34, R41). -/
def Controls.reset (c : Cfg) : Controls :=
  { wave := .sine, intensity := 0, rate := BitVec.ofNat 31 c.rateLo, ratioIdx := 0 }

/-- `reset : Cfg -> State` (R240): every field of R41, the strobes low. What the host presents next is its own, so
the model's `cmdPort` is empty here and R240's event keeps the rest of the stream (log 5). -/
def State.resetOf (c : Cfg) : State :=
  { cfg := c
    osc := { lfo := Osc.reset, mod := Osc.reset, car := Osc.reset }
    voice :=
      { keyActive := false, key := 0, tfreq := 0, pend := Controls.reset c, act := Controls.reset c,
        frameCtr := 0 }
    midi := { state := .awaitingStatus, status := 0, data1 := 0 }
    err := { illegal := false, contract := false }
    cmdPort := []
    out := .none }

/-- The machine right after reset, in the spec's default configuration.
DESIGN CHOICE (log 2, unsafe): the parameters are OPEN; `State.resetOf` is the reset of every configuration. -/
def State.reset : State := State.resetOf Cfg.default

end Sys2Proof.Machine
end

