-- ==== Sys2Proof/Machine/Ops.lean ====
section
/-! DEFINITION. The shared operations: the arithmetic of 00_scope.md R18, the oscillator register file, raising a
condition, and the two output ports. -/

namespace Sys2Proof.Machine

/-- `fdiv(a, b)` for `b > 0`: the floor of `a / b` (R18). For a positive divisor Lean's `/` on `Int` is that floor. -/
def fdiv (a b : Int) : Int := a / b

/-- `a >> n` on a signed integer, the arithmetic shift `fdiv(a, 2^n)` (R18). -/
def sar (a : Int) (n : Nat) : Int := fdiv a (2 ^ n)

/-- `rhu(a, b)` for `b > 0`: the nearest integer to `a / b`, a tie going up (R18). -/
def rhu (a b : Int) : Int := fdiv (2 * a + b) (2 * b)

/-- Read oscillator register set `i` (R22). -/
def OscFile.get (f : OscFile) : OscId → Osc
  | .lfo => f.lfo
  | .mod => f.mod
  | .car => f.car

/-- Write oscillator register set `i`; the other two keep their values (R22). -/
def OscFile.set (f : OscFile) (i : OscId) (o : Osc) : OscFile :=
  match i with
  | .lfo => { f with lfo := o }
  | .mod => { f with mod := o }
  | .car => { f with car := o }

/-- `Cfg.ROUTE(i)` (R12, R140). -/
def routeOf (c : Cfg) : OscId → Option OscId
  | .lfo => c.route.lfo
  | .mod => c.route.mod
  | .car => c.route.car

/-- The machine with oscillator register set `i` replaced. -/
def State.setOsc (s : State) (i : OscId) (o : Osc) : State :=
  { s with osc := s.osc.set i o }

/-- `raise <Condition>`: set the condition's sticky flag and end the command with no other change (R18, R211, R212).
This is all there is to taking a condition: nothing is saved, no mode changes, control goes nowhere (R216), and there
is no return (R217). -/
def raise (c : Condition) (s : State) : State :=
  match c with
  | .illegalCommand => { s with err := { s.err with illegal := true } }
  | .contractViolation => { s with err := { s.err with contract := true } }

/-- `emit_rsp(v)`: put `v` on the response port (R82). -/
def emitRsp (v : PortWord) (s : State) : State := { s with out := .rsp v }

/-- `emit_aud(l, r, last)`: put one stereo frame on the audio port (R83). -/
def emitAud (l r : PortWord) (last : Bool) (s : State) : State := { s with out := .aud l r last }

/-- No command is presented: nothing changes, and the one-cycle strobes of the step before are low again (R82, R83). -/
def idle (s : State) : State := { s with out := .none }

/-- Accept what stands first on the command port: it leaves the port, and the strobes of the step before are low
again (R81 to R83). -/
def accept (rest : List HostInput) (s : State) : State := { s with cmdPort := rest, out := .none }

/-- A cycle with `rst = 1`: every field of R41, the strobes low, the configuration kept (R240). The host's later
inputs `rest` are outside the block and stay. -/
def takeReset (rest : List HostInput) (s : State) : State :=
  { State.resetOf s.cfg with cmdPort := rest }

end Sys2Proof.Machine
end

