-- ==== Sys2Proof/Machine/Operands.lean ====
section
/-! DEFINITION. How each operand and each register is read as a number, and how a number is stored in a register of
the spec's width (R87, R14 to R17, R22 to R37). Nothing is scaled or shifted. -/

namespace Sys2Proof.Machine

/-- An operand read unsigned: `w`, `x`, `key`, `paramId`, `raw`, a byte (R87). -/
abbrev unsignedOperand {n : Nat} (v : BitVec n) : Int := (v.toNat : Int)

/-- An operand read as two's complement: `hz`, `d` (R87). -/
abbrev signedOperand {n : Nat} (v : BitVec n) : Int := v.toInt

/-- The waveform a 2-bit code names (R23). -/
def waveformOfCode (c : BitVec 2) : Waveform :=
  match c.toNat with
  | 0 => .sine
  | 1 => .square
  | 2 => .sawtooth
  | _ => .triangle

/-- `osc[i].base` as an integer (R24). -/
def Osc.baseVal (o : Osc) : Int := (o.base.toNat : Int)

/-- `osc[i].det` as an integer (R25). -/
def Osc.detVal (o : Osc) : Int := o.det.toInt

/-- `osc[i].depth` as an integer (R26). -/
def Osc.depthVal (o : Osc) : Int := (o.depth.toNat : Int)

/-- `osc[i].phase` as an integer (R27). -/
def Osc.phaseVal (o : Osc) : Int := (o.phase.toNat : Int)

/-- `osc[i].level` as an integer (R28). -/
def Osc.levelVal (o : Osc) : Int := o.level.toInt

/-- A frequency stored in 31 bits (R15, R24). Every value a rule stores fits (log 10). -/
def freqReg (f : Int) : BitVec 31 := BitVec.ofInt 31 f

/-- A depth stored in 17 bits (R16, R26). -/
def depthReg (x : Int) : BitVec 17 := BitVec.ofInt 17 x

/-- A phase stored in 32 bits (R27). -/
def phaseReg (p : Int) : BitVec 32 := BitVec.ofInt 32 p

/-- A level stored in 18 bits two's complement (R14, R28). -/
def levelReg (l : Int) : BitVec 18 := BitVec.ofInt 18 l

/-- An output sample on a 32-bit two's complement port (R83). -/
def samplePort (x : Int) : PortWord := BitVec.ofInt 32 x

end Sys2Proof.Machine
end

