-- ==== Sys2Proof/Machine/Flags.lean ====
section
/-! DEFINITION. The block has no arithmetic flags (R38). Here: the domain tests that raise a contract violation
(R210), and the status word that shows the two sticky flags (R201). -/

namespace Sys2Proof.Machine

/-- `OSC_SET_WAVEFORM` accepts 0 .. 3 (R87, R124). -/
def waveInDomain (w : BitVec 32) : Bool := decide (unsignedOperand w ≤ 3)

/-- `OSC_SET_DETUNE` accepts -128 .. 128 (R87, R126). -/
def detuneInDomain (d : BitVec 32) : Bool := decide (-128 ≤ signedOperand d ∧ signedOperand d ≤ 128)

/-- `OSC_SET_MODDEPTH` accepts 0 .. 65536 (R87, R127). -/
def depthInDomain (x : BitVec 32) : Bool := decide (unsignedOperand x ≤ 65536)

/-- The code of `midi.state` (R36). -/
def MidiState.code : MidiState → BitVec 2
  | .awaitingStatus => 0
  | .awaitingData1 => 1
  | .awaitingData2 => 2

/-- The word `STATUS` answers (R201): bit 0 `err.illegal`, bit 1 `err.contract`, bit 2 zero, bit 3 `voice.keyActive`,
bits 10:4 `voice.key`, bits 12:11 `midi.state`, the rest zero. -/
def statusWord (s : State) : PortWord :=
  (0 : BitVec 19) ++ (s.midi.state.code ++ (s.voice.key ++ (BitVec.ofBool s.voice.keyActive ++
    ((0 : BitVec 1) ++ (BitVec.ofBool s.err.contract ++ BitVec.ofBool s.err.illegal)))))

end Sys2Proof.Machine
end

