-- ==== Sys2Proof/Machine/Mixer.lean ====
section
/-! DEFINITION. The unit `fm_modulation_mixer`: effective frequency (41_phase_accumulator_osc.md R123), instantaneous
frequency and period (42_fm_modulation_mixer.md). All three are functions of state and are never stored (R29). -/

namespace Sys2Proof.Machine

/-- `MOD_SCALE`, hertz per unit of level times depth (R8). -/
def modScale : Int := 20

/-- `EffFreq(i)`, FREQ format, rounded half up (R123). -/
def effFreq (o : Osc) : Int :=
  let r := romRead .detune (o.detVal + 128)
  fdiv (o.baseVal * r + 32768) 65536

/-- The modulation term: level times depth times `MOD_SCALE`, shifted right by 19 toward minus infinity (R142). -/
def modTerm (level depth : Int) : Int := sar (level * depth * modScale) 19

/-- `InstFreq(i)`: the modulator's `level` register is read as it stands when the tick runs (R141, R142). -/
def instFreq (s : State) (i : OscId) : Int :=
  let o := s.osc.get i
  match routeOf s.cfg i with
  | none => effFreq o
  | some j => effFreq o + modTerm (s.osc.get j).levelVal o.depthVal

/-- `N`, the sample rate in FREQ format (R143). -/
def sampleRateFreq (c : Cfg) : Int := (c.sampleRate : Int) * 8192

/-- `Period(f)` for `f > 0`: `rhu(N, f)` (R143). -/
def period (c : Cfg) (f : Int) : Int := rhu (sampleRateFreq c) f

end Sys2Proof.Machine
end

