-- ==== Sys2Proof/Machine/Wave.lean ====
section
/-! DEFINITION. The unit `waveform_rom_lookup`: the pure function `WaveLookup` (40_waveform_rom_lookup.md). -/

namespace Sys2Proof.Machine

/-- Sine: the truncated index into `SINE_ROM`, no interpolation (R102). -/
def sineLevel (phase period : Int) : Int := romRead .sine (fdiv (phase * 360) period)

/-- Square: `+65536` in the first half, the phases with `2 * phase < period` (R103, C3). -/
def squareLevel (phase period : Int) : Int := if 2 * phase < period then 65536 else -65536

/-- Sawtooth (R104). -/
def sawtoothLevel (phase period : Int) : Int := fdiv (phase * 131072) period - 65536

/-- Triangle: rising in the first half, falling in the second (R105, C3). -/
def triangleLevel (phase period : Int) : Int :=
  let q := fdiv (phase * 262144) period
  if 2 * phase < period then q - 65536 else 196608 - q

/-- `WaveLookup(w, phase, period)` for `1 <= period` and `0 <= phase < period` (R100). -/
def waveLookup (w : Waveform) (phase period : Int) : Int :=
  match w with
  | .sine => sineLevel phase period
  | .square => squareLevel phase period
  | .sawtooth => sawtoothLevel phase period
  | .triangle => triangleLevel phase period

end Sys2Proof.Machine
end

