-- ==== Sys2Proof/Machine/Tick.lean ====
section
/-! DEFINITION. The unit `phase_accumulator_osc`: the tick (41_phase_accumulator_osc.md R129, R130) and the six
oscillator commands (R124 to R128, R131). -/

namespace Sys2Proof.Machine

/-- Step 5 of the tick: the phase advanced by one, wrapped to 0 when it reaches OR PASSES the period (R130, C5). -/
def nextPhase (phase period : Int) : Int := if phase + 1 ≥ period then 0 else phase + 1

/-- Steps 5 and 6 of the tick, for a period of at least one: the new phase, and the level looked up there (R129). -/
def advance (o : Osc) (period : Int) : Osc :=
  let p := nextPhase o.phaseVal period
  { o with phase := phaseReg p, level := levelReg (waveLookup o.wave p period) }

/-- `Tick(i)` (R129). A hold, on a frequency that is not positive or a period of zero, changes nothing (R144). -/
def tick (i : OscId) (s : State) : State :=
  let f := instFreq s i
  if f ≤ 0 then s
  else if period s.cfg f = 0 then s
  else s.setOsc i (advance (s.osc.get i) (period s.cfg f))

/-- `OSC_SET_WAVEFORM osc, w` (R124). -/
def execOscSetWaveform (i : OscId) (w : BitVec 32) (s : State) : Host.Outcome State Fault Refusal :=
  if waveInDomain w then
    .next (s.setOsc i { s.osc.get i with wave := waveformOfCode (w.extractLsb' 0 2) })
  else .next (raise .contractViolation s)

/-- `OSC_SET_FREQ osc, hz`: a non-positive frequency is silently ignored (R125). -/
def execOscSetFreq (i : OscId) (hz : BitVec 32) (s : State) : Host.Outcome State Fault Refusal :=
  if signedOperand hz > 0 then
    .next (s.setOsc i { s.osc.get i with base := freqReg (signedOperand hz) })
  else .next s

/-- `OSC_SET_DETUNE osc, d` (R126). -/
def execOscSetDetune (i : OscId) (d : BitVec 32) (s : State) : Host.Outcome State Fault Refusal :=
  if detuneInDomain d then
    .next (s.setOsc i { s.osc.get i with det := d.extractLsb' 0 9 })
  else .next (raise .contractViolation s)

/-- `OSC_SET_MODDEPTH osc, x` (R127). -/
def execOscSetModdepth (i : OscId) (x : BitVec 32) (s : State) : Host.Outcome State Fault Refusal :=
  if depthInDomain x then
    .next (s.setOsc i { s.osc.get i with depth := x.extractLsb' 0 17 })
  else .next (raise .contractViolation s)

/-- `OSC_TICK osc` (R128). -/
def execOscTick (i : OscId) (s : State) : Host.Outcome State Fault Refusal :=
  .next (tick i s)

/-- `OSC_READ_LEVEL osc`: the level sign-extended to 32 bits (R131). -/
def execOscReadLevel (i : OscId) (s : State) : Host.Outcome State Fault Refusal :=
  .next (emitRsp ((s.osc.get i).level.signExtend 32) s)

end Sys2Proof.Machine
end

