-- ==== Sys2Proof/Machine/Voice.lean ====
section
/-! DEFINITION. The unit `audio_sample_gen`: controls, notes and rendering (43_audio_sample_gen.md). -/

namespace Sys2Proof.Machine

/-- The linear rescale of the intensity control (R155). -/
def potIntensity (raw : Int) : Int := fdiv (raw * 65536) 1023

/-- The linear rescale of the rate control (R155). -/
def potRate (c : Cfg) (raw : Int) : Int :=
  (c.rateLo : Int) + fdiv (raw * ((c.rateHi : Int) - (c.rateLo : Int))) 1023

/-- The pending controls after `SET_POT paramId, raw`; an unknown channel or a raw value above 1023 is silently
ignored (R153, R154). -/
def potWrite (c : Cfg) (paramId raw : BitVec 16) (p : Controls) : Controls :=
  if unsignedOperand raw > 1023 then p
  else match paramId.toNat with
    | 0 => { p with wave := waveformOfCode (raw.extractLsb' 8 2) }
    | 1 => { p with intensity := depthReg (potIntensity (unsignedOperand raw)) }
    | 2 => { p with rate := freqReg (potRate c (unsignedOperand raw)) }
    | 3 => { p with ratioIdx := raw.extractLsb' 7 3 }
    | _ => p

/-- `SET_POT paramId, raw` (R153). -/
def execSetPot (paramId raw : BitVec 16) (s : State) : Host.Outcome State Fault Refusal :=
  .next { s with voice := { s.voice with pend := potWrite s.cfg paramId raw s.voice.pend } }

/-- The procedure `NoteOn(key)`; a key above 127 is silently ignored (R157). -/
def noteOn (key : Int) (s : State) : State :=
  if key > 127 then s
  else { s with voice := { s.voice with
    keyActive := true, key := BitVec.ofInt 7 key, tfreq := freqReg (romRead .freq key) } }

/-- The procedure `NoteOff(key)`; anything but the active key is a no-op, and `voice.tfreq` stays (R158). -/
def noteOff (key : Int) (s : State) : State :=
  if s.voice.keyActive = true ∧ key = (s.voice.key.toNat : Int) then
    { s with voice := { s.voice with keyActive := false, key := 0 } }
  else s

/-- `NOTE_ON key` (R157). -/
def execNoteOn (key : BitVec 32) (s : State) : Host.Outcome State Fault Refusal :=
  .next (noteOn (unsignedOperand key) s)

/-- `NOTE_OFF key` (R158). -/
def execNoteOff (key : BitVec 32) (s : State) : Host.Outcome State Fault Refusal :=
  .next (noteOff (unsignedOperand key) s)

/-- `Latch()`: all four active controls from the pending ones, together (R160). -/
def latch (s : State) : State := { s with voice := { s.voice with act := s.voice.pend } }

/-- The latch as `RENDER` runs it: in the first frame of a buffer only (R159, R160). -/
def latchAtBufferStart (s : State) : State :=
  if s.voice.frameCtr = 0 then latch s else s

/-- The modulator's base frequency that the push writes: the target frequency times the FM ratio (R162). -/
def modulatorBase (v : Voice) : Int :=
  (v.tfreq.toNat : Int) * romRead .ratio (v.act.ratioIdx.toNat : Int)

/-- `Push()` (R162). Not written: `MOD.wave`, `LFO.wave`, `LFO.depth`, every `det`, every phase and level. -/
def push (s : State) : State :=
  let v := s.voice
  { s with osc :=
    { lfo := if v.act.rate.toNat > 0 then { s.osc.lfo with base := v.act.rate } else s.osc.lfo
      mod := { s.osc.mod with base := freqReg (modulatorBase v), depth := v.act.intensity }
      car := { s.osc.car with wave := v.act.wave, base := v.tfreq, depth := v.act.intensity } } }

/-- The three ticks of `RENDER`, in this order: each reads the levels the ones before it left (R163). -/
def tickAll (s : State) : State := tick .car (tick .mod (tick .lfo s))

/-- `MapLevel(L)`: a level onto the output range, rounded to nearest, a tie going up (R164, C2). -/
def mapLevel (c : Cfg) (l : Int) : Int :=
  c.outLow + fdiv ((c.outHigh - c.outLow) * (l + 65536) + 65536) 131072

/-- The state and the sample of one frame after the latch: silence freezes all oscillators (R161), a held key pushes
the controls, ticks the three oscillators and maps the carrier's level (R162 to R164). -/
def sample (s : State) : State × Int :=
  if s.voice.keyActive then
    let t := tickAll (push s)
    (t, mapLevel t.cfg t.osc.car.levelVal)
  else (s, s.cfg.outNull)

/-- The frame that completes a buffer (R165). -/
def isLastFrame (s : State) : Bool :=
  decide ((s.voice.frameCtr.toNat : Int) = (s.cfg.bufFrames : Int) - 1)

/-- The frame counter advanced by one modulo `BUF_FRAMES` (R166). -/
def countFrame (s : State) : State :=
  { s with voice := { s.voice with
    frameCtr := BitVec.ofNat 32 ((s.voice.frameCtr.toNat + 1) % s.cfg.bufFrames) } }

/-- `RENDER` (R159): latch, sample, count, emit; both channels carry the sample (R165). -/
def execRender (s : State) : Host.Outcome State Fault Refusal :=
  let r := sample (latchAtBufferStart s)
  .next (emitAud (samplePort r.2) (samplePort r.2) (isLastFrame r.1) (countFrame r.1))

end Sys2Proof.Machine
end

