-- ==== Sys2Proof/Machine/MidiDecoder.lean ====
section
/-! DEFINITION. The unit `midi_event_decoder` (44_midi_event_decoder.md). -/

namespace Sys2Proof.Machine

/-- A status byte has bit 7 set (R180). -/
def isStatusByte (b : Byte) : Bool := b.getLsbD 7

/-- A note status byte, `0x80 .. 0x9F` on any channel (R180). -/
def isNoteStatus (b : Byte) : Bool := b &&& 0xE0 == 0x80

/-- `Dispatch(b0, b1, b2)` (R184). The velocity `b2` only tells a Note On from a Note Off. -/
def dispatch (b0 b1 b2 : Byte) (s : State) : State :=
  let n := b0.extractLsb' 4 4
  if n = 0x9 ∧ unsignedOperand b2 > 0 then noteOn (unsignedOperand b1) s
  else if n = 0x9 ∧ unsignedOperand b2 = 0 then noteOff (unsignedOperand b1) s
  else if n = 0x8 then noteOff (unsignedOperand b1) s
  else s

/-- Status matching: the first branch of R182, taken in AwaitingStatus and by any status byte that breaks into a
message. -/
def matchStatus (b : Byte) (s : State) : State :=
  if isNoteStatus b then { s with midi := { s.midi with status := b, state := .awaitingData1 } }
  else { s with midi := { s.midi with state := .awaitingStatus } }

/-- `MIDI_BYTE b` (R182, R183). -/
def execMidiByte (b : Byte) (s : State) : Host.Outcome State Fault Refusal :=
  if s.midi.state = .awaitingStatus ∨ isStatusByte b = true then .next (matchStatus b s)
  else if s.midi.state = .awaitingData1 then
    .next { s with midi := { s.midi with data1 := b, state := .awaitingData2 } }
  else
    .next (dispatch s.midi.status s.midi.data1 b
      { s with midi := { s.midi with state := .awaitingStatus } })

/-- `MIDI_PACKET b0, b1, b2`: the byte decoder is not touched (R186). -/
def execMidiPacket (b0 b1 b2 : Byte) (s : State) : Host.Outcome State Fault Refusal :=
  .next (dispatch b0 b1 b2 s)

end Sys2Proof.Machine
end

