-- ==== Sys2Proof/Machine/System.lean ====
section
/-! DEFINITION. The two system commands (45_system_commands.md). -/

namespace Sys2Proof.Machine

/-- `NOP`: hold (R200). -/
def execNop (s : State) : Host.Outcome State Fault Refusal := .next s

/-- `STATUS`: reading the flags does not clear them (R201). -/
def execStatus (s : State) : Host.Outcome State Fault Refusal := .next (emitRsp (statusWord s) s)

end Sys2Proof.Machine
end

