-- ==== Sys2Proof/Machine/Dispatch.lean ====
section
/-! DEFINITION. One arm per command of the opcode map (30_encoding.md R86). -/

namespace Sys2Proof.Machine

def exec (i : Instr) (s : State) : Host.Outcome State Fault Refusal :=
  match i with
  | .nop => Sys2Proof.Machine.execNop s
  | .oscSetWaveform osc w => Sys2Proof.Machine.execOscSetWaveform osc w s
  | .oscSetFreq osc hz => Sys2Proof.Machine.execOscSetFreq osc hz s
  | .oscSetDetune osc d => Sys2Proof.Machine.execOscSetDetune osc d s
  | .oscSetModdepth osc x => Sys2Proof.Machine.execOscSetModdepth osc x s
  | .oscTick osc => Sys2Proof.Machine.execOscTick osc s
  | .oscReadLevel osc => Sys2Proof.Machine.execOscReadLevel osc s
  | .setPot paramId raw => Sys2Proof.Machine.execSetPot paramId raw s
  | .noteOn key => Sys2Proof.Machine.execNoteOn key s
  | .noteOff key => Sys2Proof.Machine.execNoteOff key s
  | .render => Sys2Proof.Machine.execRender s
  | .midiByte b => Sys2Proof.Machine.execMidiByte b s
  | .midiPacket b0 b1 b2 => Sys2Proof.Machine.execMidiPacket b0 b1 b2 s
  | .status => Sys2Proof.Machine.execStatus s

end Sys2Proof.Machine
end

