-- ==== Sys2Proof/Machine/Step.lean ====
section
/-! DEFINITION. One step: what the host presents next is taken and carried out to completion (R66, R81). -/

namespace Sys2Proof.Machine

/-- `Step` (R81), with reset (R240). With nothing presented the block waits unchanged. A word is decoded first (R88);
an illegal one raises `IllegalCommand` and does nothing else (R90); a legal one is executed. -/
def step (s : State) : Host.Outcome State Fault Refusal :=
  match s.cmdPort with
  | [] => .next (idle s)
  | .rst :: rest => .next (takeReset rest s)
  | .cmd w :: rest =>
    match decode w with
    | .ok i => exec i (accept rest s)
    | .error _ => .next (raise .illegalCommand (accept rest s))

/-- `s` with the command word of an opcode-table row presented next on the command port. The block has no program
counter and fetches nothing (R21); the host hands it its commands, and this is that hand (log 3). -/
def State.withFetchWord (s : State) (nbits w : Nat) : State :=
  { s with cmdPort := .cmd (tableWord nbits w) :: s.cmdPort }

end Sys2Proof.Machine
end

