-- ==== Sys2Proof/Machine/Assembler.lean ====
section
/-! DEFINITION. The assembler syntax of 30_encoding.md section 5: one command per line (R92), the literal helpers (R93)
and the pseudo-commands (R94). A line is a list of characters; it assembles to the commands it stands for, or is
refused. It carries no machine semantics (D37). Spaces and tabs around a field count for nothing, and an empty line
stands for no command (DESIGN CHOICE, log 11, safe). -/

namespace Sys2Proof.Machine

/-- A mnemonic as R86 and R92 spell it. -/
def mnemonicText : Mnemonic → List Char
  | .nop => ['N', 'O', 'P']
  | .oscSetWaveform => ['O', 'S', 'C', '_', 'S', 'E', 'T', '_', 'W', 'A', 'V', 'E', 'F', 'O', 'R', 'M']
  | .oscSetFreq => ['O', 'S', 'C', '_', 'S', 'E', 'T', '_', 'F', 'R', 'E', 'Q']
  | .oscSetDetune => ['O', 'S', 'C', '_', 'S', 'E', 'T', '_', 'D', 'E', 'T', 'U', 'N', 'E']
  | .oscSetModdepth => ['O', 'S', 'C', '_', 'S', 'E', 'T', '_', 'M', 'O', 'D', 'D', 'E', 'P', 'T', 'H']
  | .oscTick => ['O', 'S', 'C', '_', 'T', 'I', 'C', 'K']
  | .oscReadLevel => ['O', 'S', 'C', '_', 'R', 'E', 'A', 'D', '_', 'L', 'E', 'V', 'E', 'L']
  | .setPot => ['S', 'E', 'T', '_', 'P', 'O', 'T']
  | .noteOn => ['N', 'O', 'T', 'E', '_', 'O', 'N']
  | .noteOff => ['N', 'O', 'T', 'E', '_', 'O', 'F', 'F']
  | .render => ['R', 'E', 'N', 'D', 'E', 'R']
  | .midiByte => ['M', 'I', 'D', 'I', '_', 'B', 'Y', 'T', 'E']
  | .midiPacket => ['M', 'I', 'D', 'I', '_', 'P', 'A', 'C', 'K', 'E', 'T']
  | .status => ['S', 'T', 'A', 'T', 'U', 'S']

/-- A space or a tab. -/
def isBlank (c : Char) : Bool := c == ' ' || c == '\t'

/-- The text without the blanks around it. -/
def trimBlanks (cs : List Char) : List Char :=
  ((cs.dropWhile isBlank).reverse.dropWhile isBlank).reverse

/-- The line without its comment; `;` starts one (R92). -/
def dropComment (cs : List Char) : List Char := cs.takeWhile fun c => c != ';'

/-- The pieces between commas (R92). -/
def splitCommas : List Char → List (List Char)
  | [] => [[]]
  | c :: cs =>
    match splitCommas cs with
    | [] => [[c]]
    | p :: ps => if c == ',' then [] :: p :: ps else (c :: p) :: ps

/-- The operands of a line, after its mnemonic: none, or the pieces between commas. -/
def operandTexts (cs : List Char) : List (List Char) :=
  match trimBlanks cs with
  | [] => []
  | c :: rest => (splitCommas (c :: rest)).map trimBlanks

/-- The value of a digit in a base up to sixteen. -/
def digitVal (base : Nat) (c : Char) : Option Nat :=
  let n := c.toNat
  let v := if 48 ≤ n ∧ n ≤ 57 then n - 48
    else if 97 ≤ n ∧ n ≤ 102 then n - 87
    else if 65 ≤ n ∧ n ≤ 70 then n - 55
    else base
  if v < base then some v else none

/-- The value of a run of digits that continues the value `acc`. -/
def digitsFrom (base : Nat) (acc : Nat) : List Char → Option Nat
  | [] => some acc
  | c :: cs =>
    match digitVal base c with
    | none => none
    | some d => digitsFrom base (acc * base + d) cs

/-- The value of a run of at least one digit. -/
def digitsVal (base : Nat) (cs : List Char) : Option Nat :=
  match cs with
  | [] => none
  | c :: rest => digitsFrom base 0 (c :: rest)

/-- A decimal literal as the exact rational `num / den` (R93). -/
structure DecimalLit where
  num : Int
  den : Nat
  deriving DecidableEq, Repr

/-- A decimal literal with no sign: digits, and after a point digits again (R93). -/
def parseUnsignedDecimal (cs : List Char) : Option DecimalLit :=
  let whole := cs.takeWhile fun c => c != '.'
  match cs.dropWhile fun c => c != '.' with
  | [] => (digitsVal 10 whole).map fun n => { num := (n : Int), den := 1 }
  | _ :: frac =>
    match digitsVal 10 whole, digitsVal 10 frac with
    | some a, some b =>
      some { num := ((a * 10 ^ frac.length + b : Nat) : Int), den := 10 ^ frac.length }
    | _, _ => none

/-- A decimal literal with an optional leading `-` (R93). -/
def parseDecimal (cs : List Char) : Option DecimalLit :=
  match cs with
  | '-' :: rest => (parseUnsignedDecimal rest).map fun x => { x with num := -x.num }
  | _ => parseUnsignedDecimal cs

/-- A literal scaled and rounded to the nearest integer, a tie going up: `fdiv(2 * x * scale + 1, 2)` with
`x = num / den`, which is `rhu(num * scale, den)` (R93). -/
def scaled (scale : Int) (x : DecimalLit) : Int := rhu (x.num * scale) (x.den : Int)

/-- `HZ(x)`: the nearest FREQ value (R93). -/
def hzLit (x : DecimalLit) : Int := scaled 8192 x

/-- `Q16(x)`: the nearest LEVEL or DEPTH value (R93). -/
def q16Lit (x : DecimalLit) : Int := scaled 65536 x

/-- `SEMI(x)`: the nearest DETUNE value (R93). -/
def semiLit (x : DecimalLit) : Int := scaled 128 x

/-- The argument of a literal helper: the text up to a closing parenthesis that ends it. -/
def helperArgument (cs : List Char) : Option DecimalLit :=
  match cs.reverse with
  | ')' :: rest => parseDecimal (trimBlanks rest.reverse)
  | _ => none

/-- An integer operand: decimal with an optional leading `-`, `0x` and hexadecimal digits, or a literal helper
(R92, R93). -/
def parseInt (cs : List Char) : Option Int :=
  match cs with
  | 'H' :: 'Z' :: '(' :: rest => (helperArgument rest).map hzLit
  | 'Q' :: '1' :: '6' :: '(' :: rest => (helperArgument rest).map q16Lit
  | 'S' :: 'E' :: 'M' :: 'I' :: '(' :: rest => (helperArgument rest).map semiLit
  | '0' :: 'x' :: hex => (digitsVal 16 hex).map fun n => (n : Int)
  | '-' :: dec => (digitsVal 10 dec).map fun n => -(n : Int)
  | _ => (digitsVal 10 cs).map fun n => (n : Int)

/-- An oscillator operand: `LFO`, `MOD`, `CAR`, or 0, 1, 2 (R92). -/
def parseOsc (cs : List Char) : Option OscId :=
  if cs = ['L', 'F', 'O'] then some .lfo
  else if cs = ['M', 'O', 'D'] then some .mod
  else if cs = ['C', 'A', 'R'] then some .car
  else match parseInt cs with
    | some 0 => some .lfo
    | some 1 => some .mod
    | some 2 => some .car
    | _ => none

/-- A waveform operand: a shape's name, or its number (R92). -/
def parseWave (cs : List Char) : Option Int :=
  if cs = ['S', 'I', 'N', 'E'] then some 0
  else if cs = ['S', 'Q', 'U', 'A', 'R', 'E'] then some 1
  else if cs = ['S', 'A', 'W'] then some 2
  else if cs = ['T', 'R', 'I'] then some 3
  else parseInt cs

/-- A control channel operand: a channel's name, or its number (R92). -/
def parseChannel (cs : List Char) : Option Int :=
  if cs = ['W', 'A', 'V', 'E'] then some 0
  else if cs = ['I', 'N', 'T', 'E', 'N', 'S', 'I', 'T', 'Y'] then some 1
  else if cs = ['R', 'A', 'T', 'E'] then some 2
  else if cs = ['R', 'A', 'T', 'I', 'O'] then some 3
  else parseInt cs

/-- An operand in a field of `n` bits, two's complement when negative; an operand that does not fit is refused (R92).
DEDUCED (log 11, safe): a field takes `-2^(n-1) .. 2^n - 1`, since R95's examples fill it signed and unsigned. -/
def fitField (n : Nat) (v : Int) : Option (BitVec n) :=
  if -2 ^ (n - 1) ≤ v ∧ v < 2 ^ n then some (BitVec.ofInt n v) else none

/-- An integer operand assembled into a field. -/
def intField (n : Nat) (cs : List Char) : Option (BitVec n) := (parseInt cs).bind (fitField n)

/-- The command of a mnemonic and its operand texts (R92); a wrong number of operands is refused. -/
def assembleCommand (m : Mnemonic) (ops : List (List Char)) : Option Instr :=
  match m, ops with
  | .nop, [] => some .nop
  | .render, [] => some .render
  | .status, [] => some .status
  | .oscTick, [o] => (parseOsc o).map .oscTick
  | .oscReadLevel, [o] => (parseOsc o).map .oscReadLevel
  | .oscSetWaveform, [o, w] =>
    (parseOsc o).bind fun i => ((parseWave w).bind (fitField 32)).map (.oscSetWaveform i)
  | .oscSetFreq, [o, hz] => (parseOsc o).bind fun i => (intField 32 hz).map (.oscSetFreq i)
  | .oscSetDetune, [o, d] => (parseOsc o).bind fun i => (intField 32 d).map (.oscSetDetune i)
  | .oscSetModdepth, [o, x] => (parseOsc o).bind fun i => (intField 32 x).map (.oscSetModdepth i)
  | .setPot, [p, raw] =>
    ((parseChannel p).bind (fitField 16)).bind fun paramId => (intField 16 raw).map (.setPot paramId)
  | .noteOn, [k] => (intField 32 k).map .noteOn
  | .noteOff, [k] => (intField 32 k).map .noteOff
  | .midiByte, [b] => (intField 8 b).map .midiByte
  | .midiPacket, [b0, b1, b2] =>
    (intField 8 b0).bind fun x => (intField 8 b1).bind fun y => (intField 8 b2).map (.midiPacket x y)
  | _, _ => none

/-- `MIDI_MSG b0, b1, b2` (R94). -/
def midiMsg (b0 b1 b2 : Byte) : List Instr := [.midiByte b0, .midiByte b1, .midiByte b2]

/-- `RENDER_BUFFER`: `BUF_FRAMES` copies of `RENDER` (R94). -/
def renderBuffer (c : Cfg) : List Instr := List.replicate c.bufFrames .render

/-- `TICK_N osc, n`: `n` copies of `OSC_TICK osc` (R94). -/
def tickN (i : OscId) (n : Nat) : List Instr := List.replicate n (.oscTick i)

/-- The commands of a pseudo-command, or none if the name is not one (R94). -/
def assemblePseudo (c : Cfg) (name : List Char) (ops : List (List Char)) : Option (List Instr) :=
  if name = ['M', 'I', 'D', 'I', '_', 'M', 'S', 'G'] then
    match ops with
    | [b0, b1, b2] =>
      (intField 8 b0).bind fun x => (intField 8 b1).bind fun y => (intField 8 b2).map (midiMsg x y)
    | _ => none
  else if name = ['R', 'E', 'N', 'D', 'E', 'R', '_', 'B', 'U', 'F', 'F', 'E', 'R'] then
    match ops with
    | [] => some (renderBuffer c)
    | _ => none
  else if name = ['T', 'I', 'C', 'K', '_', 'N'] then
    match ops with
    | [o, n] =>
      (parseOsc o).bind fun i => (parseInt n).bind fun k =>
        if 0 ≤ k then some (tickN i k.toNat) else none
    | _ => none
  else none

/-- The commands one line stands for: its mnemonic, then its operands separated by commas (R92, R94). -/
def assembleLine (c : Cfg) (line : List Char) : Option (List Instr) :=
  match trimBlanks (dropComment line) with
  | [] => some []
  | c0 :: cs =>
    let name := (c0 :: cs).takeWhile fun x => !isBlank x
    let ops := operandTexts ((c0 :: cs).dropWhile fun x => !isBlank x)
    match Mnemonic.all.find? fun m => mnemonicText m == name with
    | some m => (assembleCommand m ops).map fun i => [i]
    | none => assemblePseudo c name ops

/-- The command words of a program's lines, in order; refused when a line is. -/
def assemble (c : Cfg) : List (List Char) → Option (List CmdWord)
  | [] => some []
  | line :: lines =>
    match assembleLine c line, assemble c lines with
    | some is, some ws => some (is.map encode ++ ws)
    | _, _ => none

end Sys2Proof.Machine
end

