-- ==== Sys2Proof/Safety.lean ====
section
/-! DEFINITION. What a run is, what it emits, and the invariant every run keeps: each register within the legal values
10_state.md gives it. -/

namespace Sys2Proof.Machine

/-- `n` steps, stopping at the first fault or refusal. -/
def runSteps : Nat → State → Host.Outcome State Fault Refusal
  | 0, s => .next s
  | n + 1, s =>
    match step s with
    | .next t => runSteps n t
    | .fault r => .fault r
    | .refused r => .refused r

/-- What the first `n` steps put on the output ports, in order (R68). -/
def emitted : Nat → State → List Output
  | 0, _ => []
  | n + 1, s =>
    match step s with
    | .next t => t.out :: emitted n t
    | .fault _ => []
    | .refused _ => []

/-- `n` executions of one command, one after another. -/
def execTimes (i : Instr) : Nat → State → Host.Outcome State Fault Refusal
  | 0, s => .next s
  | n + 1, s =>
    match exec i s with
    | .next t => execTimes i n t
    | .fault r => .fault r
    | .refused r => .refused r

/-- The legal values of an oscillator's registers: R25, R26, R28 (every value of `wave`, `base`, `phase` is legal). -/
structure OscLegal (o : Osc) : Prop where
  det_ge : -128 ≤ o.det.toInt
  det_le : o.det.toInt ≤ 128
  depth_le : o.depth.toNat ≤ 65536
  level_ge : -65536 ≤ o.level.toInt
  level_le : o.level.toInt ≤ 65536

/-- The legal values of a copy of the controls: DEPTH format for the intensity (R32), `RATE_LO .. RATE_HI` for the
rate (R155). -/
structure ControlsLegal (c : Cfg) (p : Controls) : Prop where
  intensity_le : p.intensity.toNat ≤ 65536
  rate_ge : c.rateLo ≤ p.rate.toNat
  rate_le : p.rate.toNat ≤ c.rateHi

/-- The legal values of the voice registers: R30 (`key` is 0 while no key is active), R31 (the target frequency is
the active key's table entry), R33, R34, R35. -/
structure VoiceLegal (c : Cfg) (v : Voice) : Prop where
  key_of_inactive : v.keyActive = false → v.key = 0
  tfreq_of_active : v.keyActive = true → (v.tfreq.toNat : Int) = romRead .freq (v.key.toNat : Int)
  pend : ControlsLegal c v.pend
  act : ControlsLegal c v.act
  frameCtr_lt : v.frameCtr.toNat < c.bufFrames

/-- The legal values of the decoder registers (R37): `data1` is a data byte, and a partial message has a note status
byte. -/
structure MidiLegal (m : Midi) : Prop where
  data1_data : isStatusByte m.data1 = false
  status_note : m.state ≠ .awaitingStatus → isNoteStatus m.status = true

/-- The invariant: a valid configuration (R7 to R11) and every register at a legal value. -/
structure StateLegal (s : State) : Prop where
  cfg : s.cfg.Valid
  osc : ∀ i, OscLegal (s.osc.get i)
  voice : VoiceLegal s.cfg s.voice
  midi : MidiLegal s.midi

end Sys2Proof.Machine
end

