-- ==== Sys2Proof/Certificates/Slice0/Obligations.lean ====
section
/-! DEFINITION. The statements for the provers. Each docstring says which rule of spec/ it formalises. -/

namespace Sys2Proof.Claims

open Sys2Proof.Machine

/-- Nothing outside oscillator `i` differs: the other two oscillators, the voice, the decoder, the flags, the ports. -/
def OnlyOsc (i : OscId) (s t : State) : Prop :=
  (∀ j, j ≠ i → t.osc.get j = s.osc.get j) ∧ t.cfg = s.cfg ∧ t.voice = s.voice ∧ t.midi = s.midi ∧
  t.err = s.err ∧ t.cmdPort = s.cmdPort ∧ t.out = s.out

/-- Nothing outside the voice differs. -/
def OnlyVoice (s t : State) : Prop :=
  t.osc = s.osc ∧ t.cfg = s.cfg ∧ t.midi = s.midi ∧ t.err = s.err ∧ t.cmdPort = s.cmdPort ∧
  t.out = s.out

/-- Nothing but what stands on the output ports differs. -/
def OnlyOut (s t : State) : Prop :=
  t.osc = s.osc ∧ t.cfg = s.cfg ∧ t.voice = s.voice ∧ t.midi = s.midi ∧ t.err = s.err ∧
  t.cmdPort = s.cmdPort

/-- Only the flag `err.contract` differs, and it is set. -/
def OnlyContractFlag (s t : State) : Prop :=
  t.err.contract = true ∧ t.err.illegal = s.err.illegal ∧ t.osc = s.osc ∧ t.cfg = s.cfg ∧
  t.voice = s.voice ∧ t.midi = s.midi ∧ t.cmdPort = s.cmdPort ∧ t.out = s.out

/-- The number of a waveform (10_state.md R23). -/
def waveNumber : Waveform → Nat
  | .sine => 0
  | .square => 1
  | .sawtooth => 2
  | .triangle => 3

/-- `q` is the floor of `a / b` (00_scope.md R18, for `b > 0`). -/
def IsFloor (q a b : Int) : Prop := b * q ≤ a ∧ a < b * (q + 1)

/-- The machine with other pending controls. -/
def withPend (s : State) (p : Controls) : State := { s with voice := { s.voice with pend := p } }

/-- The machine with another target frequency. -/
def withTfreq (s : State) (f : BitVec 31) : State := { s with voice := { s.voice with tfreq := f } }

/-- The machine with other decoder registers. -/
def withMidi (s : State) (m : Midi) : State := { s with midi := m }

end Sys2Proof.Claims

open Sys2Proof Sys2Proof.Machine Sys2Proof.Claims

/-- R95: the worked encodings, decoded and encoded, and the four illegal words. -/
def Obligations.WorkedEncodings : Prop :=
  decode 0x2800370000 = .ok (.oscSetFreq .car 0x00370000) ∧ encode (.oscSetFreq .car 0x00370000) = 0x2800370000 ∧
  decode 0x28FFFF6000 = .ok (.oscSetFreq .car 0xFFFF6000) ∧ encode (.oscSetFreq .car (-40960)) = 0x28FFFF6000 ∧
  decode 0x34FFFFFF80 = .ok (.oscSetDetune .mod 0xFFFFFF80) ∧ encode (.oscSetDetune .mod (-128)) = 0x34FFFFFF80 ∧
  decode 0x5000000000 = .ok (.oscTick .lfo) ∧ encode (.oscTick .lfo) = 0x5000000000 ∧
  decode 0x6800000000 = .ok (.oscReadLevel .car) ∧ encode (.oscReadLevel .car) = 0x6800000000 ∧
  decode 0x80000303FF = .ok (.setPot 3 1023) ∧ encode (.setPot 3 1023) = 0x80000303FF ∧
  decode 0x900000003C = .ok (.noteOn 60) ∧ encode (.noteOn 60) = 0x900000003C ∧
  decode 0xB000000000 = .ok .render ∧ encode .render = 0xB000000000 ∧
  decode 0xC000000090 = .ok (.midiByte 0x90) ∧ encode (.midiByte 0x90) = 0xC000000090 ∧
  decode 0xD000903C40 = .ok (.midiPacket 0x90 0x3C 0x40) ∧
  encode (.midiPacket 0x90 0x3C 0x40) = 0xD000903C40 ∧
  decode 0xE000000000 = .ok .status ∧ encode .status = 0xE000000000 ∧
  decode 0x5C00000000 = .error .oscField ∧ decode 0x7000000000 = .error .reservedOpcode ∧
  decode 0xB000000001 = .error .argNotZero ∧ decode 0x0100000000 = .error .zNotZero

/-- R93: each literal helper gives the integer nearest to the scaled decimal literal, a tie going up, for every
literal `num / den`; and the rule's examples. -/
def Obligations.LiteralsRoundToNearest : Prop :=
  (∀ x : DecimalLit, 0 < x.den →
    IsFloor (hzLit x) (2 * x.num * 8192 + (x.den : Int)) (2 * (x.den : Int)) ∧
    IsFloor (q16Lit x) (2 * x.num * 65536 + (x.den : Int)) (2 * (x.den : Int)) ∧
    IsFloor (semiLit x) (2 * x.num * 128 + (x.den : Int)) (2 * (x.den : Int))) ∧
  hzLit { num := 440, den := 1 } = 3604480 ∧ hzLit { num := -50, den := 10 } = -40960 ∧
  q16Lit { num := 5, den := 10 } = 32768 ∧ semiLit { num := 10, den := 10 } = 128

/-- Decoding an encoded command gives it back, for every command and every operand (R84, R85, R87). -/
def Obligations.DecodeOfEncode : Prop := ∀ i : Instr, decode (encode i) = .ok i

/-- A word that decodes to a command is that command's encoding: no two words mean one command (R84, R88). -/
def Obligations.EncodeOfDecode : Prop :=
  ∀ (w : CmdWord) (i : Instr), decode w = .ok i → encode i = w

/-- The ordered checks of R88 agree with the match and mask columns of R86: a word decodes to a command of a mnemonic
exactly when it matches that mnemonic's row. -/
def Obligations.DecodeAgreesWithOpcodeMap : Prop :=
  ∀ (w : CmdWord) (m : Mnemonic),
    (∃ i : Instr, decode w = .ok i ∧ i.mnemonic = m) ↔
    ∃ r ∈ opcodeMap, r.mnemonic = m ∧ r.accepts w = true

/-- R88: decoding, check by check in its order, and the operands of R87 for a word that passes them all. -/
def Obligations.DecodingInOrder : Prop :=
  ∀ w : CmdWord,
    let opc := w.extractLsb' 36 4
    let osc := w.extractLsb' 34 2
    let z := w.extractLsb' 32 2
    let arg := w.extractLsb' 0 32
    let selects : Prop := opc.toNat ∈ [1, 2, 3, 4, 5, 6]
    let plain : Prop := opc.toNat ∈ [0, 8, 9, 10, 11, 12, 13, 14]
    (z ≠ 0 → decode w = .error .zNotZero) ∧
    (z = 0 → opc.toNat = 7 ∨ opc.toNat = 15 → decode w = .error .reservedOpcode) ∧
    (z = 0 → selects → osc = 3 → decode w = .error .oscField) ∧
    (z = 0 → plain → osc ≠ 0 → decode w = .error .oscField) ∧
    (z = 0 → selects → osc ≠ 3 → opc.toNat = 5 ∨ opc.toNat = 6 → arg ≠ 0 →
      decode w = .error .argNotZero) ∧
    (z = 0 → osc = 0 → opc.toNat = 0 ∨ opc.toNat = 11 ∨ opc.toNat = 14 → arg ≠ 0 →
      decode w = .error .argNotZero) ∧
    (z = 0 → osc = 0 → opc.toNat = 12 → 256 ≤ arg.toNat → decode w = .error .argNotZero) ∧
    (z = 0 → osc = 0 → opc.toNat = 13 → 16777216 ≤ arg.toNat → decode w = .error .argNotZero) ∧
    (∀ i : OscId, z = 0 → osc = i.select →
      (opc.toNat = 1 → decode w = .ok (.oscSetWaveform i arg)) ∧
      (opc.toNat = 2 → decode w = .ok (.oscSetFreq i arg)) ∧
      (opc.toNat = 3 → decode w = .ok (.oscSetDetune i arg)) ∧
      (opc.toNat = 4 → decode w = .ok (.oscSetModdepth i arg)) ∧
      (opc.toNat = 5 → arg = 0 → decode w = .ok (.oscTick i)) ∧
      (opc.toNat = 6 → arg = 0 → decode w = .ok (.oscReadLevel i))) ∧
    (z = 0 → osc = 0 →
      (opc.toNat = 0 → arg = 0 → decode w = .ok .nop) ∧
      (opc.toNat = 8 → decode w = .ok (.setPot (arg.extractLsb' 16 16) (arg.extractLsb' 0 16))) ∧
      (opc.toNat = 9 → decode w = .ok (.noteOn arg)) ∧
      (opc.toNat = 10 → decode w = .ok (.noteOff arg)) ∧
      (opc.toNat = 11 → arg = 0 → decode w = .ok .render) ∧
      (opc.toNat = 12 → arg.toNat < 256 → decode w = .ok (.midiByte (arg.extractLsb' 0 8))) ∧
      (opc.toNat = 13 → arg.toNat < 16777216 →
        decode w = .ok (.midiPacket (arg.extractLsb' 16 8) (arg.extractLsb' 8 8) (arg.extractLsb' 0 8))) ∧
      (opc.toNat = 14 → arg = 0 → decode w = .ok .status))

/-- A step on a legal word runs the decoded command, after the word has left the port and the strobes of the step
before are low (R66, R81; the stream `cmdPort` is the model's own, log 3). -/
def Obligations.StepRunsDecodedCommand : Prop :=
  ∀ (s : State) (w : CmdWord) (rest : List HostInput) (i : Instr),
    s.cmdPort = .cmd w :: rest → decode w = .ok i →
    step s = exec i { s with cmdPort := rest, out := .none }

/-- R90: an illegal word sets `err.illegal` and does nothing else. -/
def Obligations.IllegalWordSetsOnlyItsFlag : Prop :=
  ∀ (s : State) (w : CmdWord) (rest : List HostInput) (e : IllegalWord),
    s.cmdPort = .cmd w :: rest → decode w = .error e →
    ∃ t, step s = .next t ∧ t.err.illegal = true ∧ t.err.contract = s.err.contract ∧
      t.osc = s.osc ∧ t.cfg = s.cfg ∧ t.voice = s.voice ∧ t.midi = s.midi ∧
      t.cmdPort = rest ∧ t.out = .none

/-- With nothing presented the block waits unchanged, its strobes low (model's choice, log 3; R189, R220). -/
def Obligations.EmptyPortWaits : Prop :=
  ∀ s : State, s.cmdPort = [] → step s = .next { s with out := .none }

/-- After a reset event every field has the value of R41's table, whatever the block held before, for every valid
configuration, which reset leaves alone, and the strobes are low (R41, R240). That reset is an event of the stream
`cmdPort`, and that the later inputs stay on it, is the model's own choice (log 3, log 5). -/
def Obligations.ResetGivesEveryFieldItsValue : Prop :=
  ∀ (s : State) (rest : List HostInput), s.cfg.Valid → s.cmdPort = .rst :: rest →
    ∃ t, step s = .next t ∧
      (∀ i, (t.osc.get i).wave = .sine ∧ (t.osc.get i).base = 0 ∧ (t.osc.get i).det = 0 ∧
        (t.osc.get i).depth = 0 ∧ (t.osc.get i).phase = 0 ∧ (t.osc.get i).level = 0) ∧
      t.voice.keyActive = false ∧ t.voice.key = 0 ∧ t.voice.tfreq = 0 ∧
      t.voice.pend.wave = .sine ∧ t.voice.act.wave = .sine ∧
      t.voice.pend.intensity = 0 ∧ t.voice.act.intensity = 0 ∧
      t.voice.pend.rate.toNat = s.cfg.rateLo ∧ t.voice.act.rate.toNat = s.cfg.rateLo ∧
      t.voice.pend.ratioIdx = 0 ∧ t.voice.act.ratioIdx = 0 ∧ t.voice.frameCtr = 0 ∧
      t.midi.state = .awaitingStatus ∧ t.midi.status = 0 ∧ t.midi.data1 = 0 ∧
      t.err.illegal = false ∧ t.err.contract = false ∧
      t.cfg = s.cfg ∧ t.out = .none ∧ t.cmdPort = rest

/-- The reset state meets the invariant: in every valid configuration, and in the one of `State.reset` (log 2). -/
def Obligations.ResetIsLegal : Prop :=
  (∀ c : Cfg, c.Valid → StateLegal (State.resetOf c)) ∧ StateLegal State.reset

/-- Every step keeps the invariant: each register stays within the legal values of 10_state.md (R25, R26, R28, R30,
R31, R33 to R35, R37). -/
def Obligations.StepKeepsLegal : Prop :=
  ∀ s t : State, StateLegal s → step s = .next t → StateLegal t

/-- R220: from every state and for every word there is a next state. -/
def Obligations.EveryStepAnswersNext : Prop :=
  (∀ s : State, ∃ t, step s = .next t) ∧ (∀ (i : Instr) (s : State), ∃ t, exec i s = .next t)

/-- Each step takes one input, the oldest, and leaves the later ones in their order (R66, R81; the stream `cmdPort` is
the model's own, log 3). -/
def Obligations.StepTakesOldestInput : Prop :=
  ∀ (s t : State) (x : HostInput) (rest : List HostInput),
    s.cmdPort = x :: rest → step s = .next t → t.cmdPort = rest

/-- No step writes the configuration (00_scope.md section 4, R240). -/
def Obligations.NothingWritesTheConfiguration : Prop :=
  ∀ s t : State, step s = .next t → t.cfg = s.cfg

/-- The two flags record exactly the two conditions of R210: `err.illegal` an illegal word, `err.contract` one of the
three setters with an operand outside its domain; a set flag stays set (R211, R212, R217, R219). -/
def Obligations.FlagsRecordExactlyTheConditions : Prop :=
  ∀ (s t : State) (w : CmdWord) (rest : List HostInput),
    s.cmdPort = .cmd w :: rest → step s = .next t →
    (t.err.illegal = true ↔ s.err.illegal = true ∨ ∃ e, decode w = .error e) ∧
    (t.err.contract = true ↔ s.err.contract = true ∨
      (∃ i x, decode w = .ok (.oscSetWaveform i x) ∧ 3 < x.toNat) ∨
      (∃ i x, decode w = .ok (.oscSetDetune i x) ∧ (x.toInt < -128 ∨ 128 < x.toInt)) ∨
      (∃ i x, decode w = .ok (.oscSetModdepth i x) ∧ 65536 < x.toNat))

/-- A set flag stays set in every run without a reset (R217). -/
def Obligations.FlagsAreStickyOverRuns : Prop :=
  ∀ (n : Nat) (s t : State), HostInput.rst ∉ s.cmdPort.take n → runSteps n s = .next t →
    (s.err.illegal = true → t.err.illegal = true) ∧ (s.err.contract = true → t.err.contract = true)

/-- R124: `OSC_SET_WAVEFORM` writes the shape an operand of 0 to 3 names, into one oscillator, phase and level
untouched; a larger operand raises ContractViolation and writes nothing but its flag. -/
def Obligations.SetWaveformWritesOrRejects : Prop :=
  ∀ (i : OscId) (w : BitVec 32) (s : State), ∃ t, exec (.oscSetWaveform i w) s = .next t ∧
    (w.toNat ≤ 3 → waveNumber (t.osc.get i).wave = w.toNat ∧
      t.osc.get i = { s.osc.get i with wave := (t.osc.get i).wave } ∧ OnlyOsc i s t) ∧
    (3 < w.toNat → OnlyContractFlag s t)

/-- R125: `OSC_SET_FREQ` writes a positive frequency into one oscillator, phase and level untouched; zero and every
negative frequency change nothing and set no flag. -/
def Obligations.SetFreqWritesPositiveOnly : Prop :=
  ∀ (i : OscId) (hz : BitVec 32) (s : State), ∃ t, exec (.oscSetFreq i hz) s = .next t ∧
    (0 < hz.toInt → ((t.osc.get i).base.toNat : Int) = hz.toInt ∧
      t.osc.get i = { s.osc.get i with base := (t.osc.get i).base } ∧ OnlyOsc i s t) ∧
    (hz.toInt ≤ 0 → t = s)

/-- R126: `OSC_SET_DETUNE` writes a detune of -128 to 128 into one oscillator; any other operand raises
ContractViolation and writes nothing but its flag. -/
def Obligations.SetDetuneWritesOrRejects : Prop :=
  ∀ (i : OscId) (d : BitVec 32) (s : State), ∃ t, exec (.oscSetDetune i d) s = .next t ∧
    (-128 ≤ d.toInt ∧ d.toInt ≤ 128 → (t.osc.get i).det.toInt = d.toInt ∧
      t.osc.get i = { s.osc.get i with det := (t.osc.get i).det } ∧ OnlyOsc i s t) ∧
    (d.toInt < -128 ∨ 128 < d.toInt → OnlyContractFlag s t)

/-- R127: `OSC_SET_MODDEPTH` writes a depth of 0 to 65536 into one oscillator; a larger operand raises
ContractViolation and writes nothing but its flag. -/
def Obligations.SetModdepthWritesOrRejects : Prop :=
  ∀ (i : OscId) (x : BitVec 32) (s : State), ∃ t, exec (.oscSetModdepth i x) s = .next t ∧
    (x.toNat ≤ 65536 → (t.osc.get i).depth.toNat = x.toNat ∧
      t.osc.get i = { s.osc.get i with depth := (t.osc.get i).depth } ∧ OnlyOsc i s t) ∧
    (65536 < x.toNat → OnlyContractFlag s t)

/-- R123: the effective frequency, for every legal detune: the rounded product with the detune table's entry, its
bounds, when it is zero, that no detune leaves the base frequency, and the two worked values. -/
def Obligations.EffectiveFrequency : Prop :=
  (∀ o : Osc, -128 ≤ o.det.toInt → o.det.toInt ≤ 128 →
    (∃ r, (romContents .detune)[(o.det.toInt + 128).toNat]? = some r ∧ 61858 ≤ r ∧ r ≤ 69433 ∧
      (o.base.toNat : Int) * r < 2 ^ 48 ∧ IsFloor (effFreq o) ((o.base.toNat : Int) * r + 32768) 65536) ∧
    0 ≤ effFreq o ∧ effFreq o ≤ 2275180543 ∧
    (effFreq o = 0 ↔ o.base = 0) ∧ (o.det = 0 → effFreq o = (o.base.toNat : Int))) ∧
  effFreq { Osc.reset with base := 3604480, det := 128 } = 3818815 ∧
  effFreq { Osc.reset with base := 3604480, det := -128 } = 3402190

/-- R142: the instantaneous frequency, its two cases, its floor, its bounds. -/
def Obligations.InstantaneousFrequency : Prop :=
  ∀ (s : State) (i : OscId), StateLegal s →
    (routeOf s.cfg i = none → instFreq s i = effFreq (s.osc.get i)) ∧
    (∀ j, routeOf s.cfg i = some j →
      let x := (s.osc.get j).level.toInt * ((s.osc.get i).depth.toNat : Int) * 20
      x ≤ 20 * 2 ^ 32 ∧ -(20 * 2 ^ 32) ≤ x ∧
      ∃ t, IsFloor t x 524288 ∧
        instFreq s i = effFreq (s.osc.get i) + t ∧ -163840 ≤ t ∧ t ≤ 163840 ∧
        ((s.osc.get i).depth = 0 ∨ (s.osc.get j).level = 0 → t = 0)) ∧
    -163840 ≤ instFreq s i ∧ instFreq s i ≤ 2275344383

/-- R143: the period, its rounding and its bounds. -/
def Obligations.PeriodOfFrequency : Prop :=
  (∀ (c : Cfg) (f : Int), c.Valid → 0 < f →
    let n : Int := (c.sampleRate : Int) * 8192
    IsFloor (period c f) (2 * n + f) (2 * f) ∧ period c f ≤ n ∧ n < 2 ^ 31 ∧
    (period c f = 0 ↔ 2 * n < f) ∧ (period c f = 1 ↔ 2 * n < 3 * f ∧ f ≤ 2 * n)) ∧
  period Cfg.default 3604480 = 109 ∧ period Cfg.default 3768320 = 104 ∧
  period Cfg.default 3440640 = 114 ∧ period Cfg.default 3686400 = 107 ∧
  period Cfg.default 39321600 = 10 ∧ period Cfg.default 1 = 393216000

/-- R144: a tick holds on a frequency that is not positive and on a period of zero, and raises nothing. -/
def Obligations.DegenerateTickHolds : Prop :=
  ∀ (i : OscId) (s : State),
    instFreq s i ≤ 0 ∨ (0 < instFreq s i ∧ period s.cfg (instFreq s i) = 0) →
    exec (.oscTick i) s = .next s

/-- R129, R130: `Tick(i)`, hold or advance, with the wrap at or past the period and the level looked up at the new
phase; after an advance the phase is inside the period and the level in LEVEL format. -/
def Obligations.TickAdvances : Prop :=
  ∀ (i : OscId) (s : State), s.cfg.Valid →
    let f := instFreq s i
    let p := period s.cfg f
    let o := s.osc.get i
    (f ≤ 0 → exec (.oscTick i) s = .next s) ∧
    (0 < f → p = 0 → exec (.oscTick i) s = .next s) ∧
    (0 < f → p ≠ 0 → ∃ t, exec (.oscTick i) s = .next t ∧
      let o' := t.osc.get i
      (p ≤ (o.phase.toNat : Int) + 1 → o'.phase = 0) ∧
      ((o.phase.toNat : Int) + 1 < p → o'.phase.toNat = o.phase.toNat + 1) ∧
      o'.level.toInt = waveLookup o.wave (o'.phase.toNat : Int) p ∧
      o' = { o with phase := o'.phase, level := o'.level } ∧ OnlyOsc i s t ∧
      1 ≤ p ∧ (o'.phase.toNat : Int) < p ∧ -65536 ≤ o'.level.toInt ∧ o'.level.toInt ≤ 65536)

/-- R145: with the FM modulator routed to the carrier, the carrier's tick right after a tick of the modulator uses
the modulator's new level. -/
def Obligations.CarrierSeesNewModulatorLevel : Prop :=
  ∀ s a : State, StateLegal s → routeOf s.cfg .car = some .mod → exec (.oscTick .mod) s = .next a →
    ∃ t b, IsFloor t ((a.osc.get .mod).level.toInt * ((s.osc.get .car).depth.toNat : Int) * 20) 524288 ∧
      let f := effFreq (s.osc.get .car) + t
      let p := period s.cfg f
      exec (.oscTick .car) a = .next b ∧
      (f ≤ 0 ∨ p = 0 → b = a) ∧
      (0 < f → p ≠ 0 →
        ((b.osc.get .car).phase.toNat : Int) =
          (if p ≤ ((s.osc.get .car).phase.toNat : Int) + 1 then 0 else ((s.osc.get .car).phase.toNat : Int) + 1) ∧
        (b.osc.get .car).level.toInt =
          waveLookup (s.osc.get .car).wave ((b.osc.get .car).phase.toNat : Int) p)

/-- The document's property 4 for every period (R129, R130, R132): `n` ticks of an oscillator that does not modulate
itself, at a constant frequency, move its phase by `n` modulo the period, and the level is the lookup there. -/
def Obligations.PhaseAfterManyTicks : Prop :=
  ∀ (i : OscId) (n : Nat) (s : State), s.cfg.Valid → routeOf s.cfg i ≠ some i →
    0 < instFreq s i → 1 ≤ period s.cfg (instFreq s i) →
    ((s.osc.get i).phase.toNat : Int) < period s.cfg (instFreq s i) →
    ∃ t, execTimes (.oscTick i) n s = .next t ∧
      ((t.osc.get i).phase.toNat : Int) =
        (((s.osc.get i).phase.toNat : Int) + (n : Int)) % period s.cfg (instFreq s i) ∧
      (0 < n → (t.osc.get i).level.toInt = waveLookup (s.osc.get i).wave
        ((t.osc.get i).phase.toNat : Int) (period s.cfg (instFreq s i))) ∧
      t.osc.get i = { s.osc.get i with phase := (t.osc.get i).phase, level := (t.osc.get i).level } ∧
      OnlyOsc i s t

/-- R131: `OSC_READ_LEVEL` answers the level sign-extended and writes nothing. -/
def Obligations.ReadLevelAnswersLevel : Prop :=
  ∀ (i : OscId) (s : State), ∃ t v, exec (.oscReadLevel i) s = .next t ∧ t.out = .rsp v ∧
    v.toInt = (s.osc.get i).level.toInt ∧ OnlyOut s t

/-- The bounds of `WaveLookup` and its four values at phase 0, as R106 derives them from R102 to R105 and R107. -/
def Obligations.WaveLookupBounds : Prop :=
  ∀ (w : Waveform) (phase period : Int), 1 ≤ period → 0 ≤ phase → phase < period →
    -65536 ≤ waveLookup w phase period ∧ waveLookup w phase period ≤ 65536 ∧
    waveLookup .sine 0 period = 0 ∧ waveLookup .square 0 period = 65536 ∧
    waveLookup .sawtooth 0 period = -65536 ∧ waveLookup .triangle 0 period = -65536

/-- The four shapes, each quotient pinned as a floor and the sine index inside its table (R102 to R105, R65), and the
square's second half from `period / 2` on (the document's property 1). -/
def Obligations.WaveShapes : Prop :=
  ∀ phase period : Int, 1 ≤ period → 0 ≤ phase → phase < period →
    (∃ k : Nat, k < 360 ∧ IsFloor (k : Int) (phase * 360) period ∧
      (romContents .sine)[k]? = some (waveLookup .sine phase period)) ∧
    (2 * phase < period → waveLookup .square phase period = 65536) ∧
    (period ≤ 2 * phase → waveLookup .square phase period = -65536) ∧
    IsFloor (waveLookup .sawtooth phase period + 65536) (phase * 131072) period ∧
    waveLookup .sawtooth phase period ≤ 65535 ∧
    (2 * phase < period → IsFloor (waveLookup .triangle phase period + 65536) (phase * 262144) period) ∧
    (period ≤ 2 * phase → IsFloor (196608 - waveLookup .triangle phase period) (phase * 262144) period)

/-- R108: the checks a transcription of the sine table must pass. -/
def Obligations.SineTablePassesItsChecks : Prop :=
  let rom := romContents .sine
  rom.length = 360 ∧
  (∀ k < 180, rom.getD (k + 180) 0 = -rom.getD k 0) ∧
  (∀ k < 181, rom.getD (180 - k) 0 = rom.getD k 0) ∧
  (rom.take 91).sum = 3787608 ∧ (rom.map Int.natAbs).sum = 15019360 ∧ rom.sum = 0 ∧
  ((List.range 360).map fun (k : Nat) => ((k : Int) + 1) * rom.getD k 0).sum = -1351742400 ∧
  (∀ k < 360, rom.getD k 0 ≤ 65536 ∧ (rom.getD k 0 = 65536 ↔ k = 90)) ∧
  (∀ k < 360, -65536 ≤ rom.getD k 0 ∧ (rom.getD k 0 = -65536 ↔ k = 270))

/-- R151: entry `k` is the integer nearest to `8.1758 * 2^(k/12) * 8192`. The test is exact: with
`x = 81758 * 8192 / 10000`, `v - 1/2 < x * 2^(k/12) < v + 1/2`, both sides doubled and raised to the twelfth power.
The table is positive and strictly increasing. -/
def Obligations.FrequencyTableIsEqualTempered : Prop :=
  let rom := romContents .freq
  rom.length = 128 ∧
  (∀ k < 128, 0 < rom.getD k 0 ∧
    ((2 * (rom.getD k 0).toNat - 1) * 10000) ^ 12 < (2 * 81758 * 8192) ^ 12 * 2 ^ k ∧
    (2 * 81758 * 8192) ^ 12 * 2 ^ k < ((2 * (rom.getD k 0).toNat + 1) * 10000) ^ 12) ∧
  (∀ k < 127, rom.getD k 0 < rom.getD (k + 1) 0) ∧ rom.sum = 1829751279 ∧
  rom.getD 60 0 = 2143237 ∧ rom.getD 69 0 = 3604480

/-- R122: entry `k` is the integer nearest to `2^((k - 128) / 1536) * 65536`. The test is exact: both sides of
`r - 1/2 < 65536 * 2^((k - 128) / 1536) < r + 1/2` doubled, raised to the power 1536 and multiplied by `2^128`.
The table is strictly increasing. -/
def Obligations.DetuneTableIsThePowerLaw : Prop :=
  let rom := romContents .detune
  rom.length = 257 ∧
  (∀ k < 257, 0 < rom.getD k 0 ∧
    (2 * (rom.getD k 0).toNat - 1) ^ 1536 * 2 ^ 128 < 131072 ^ 1536 * 2 ^ k ∧
    131072 ^ 1536 * 2 ^ k < (2 * (rom.getD k 0).toNat + 1) ^ 1536 * 2 ^ 128) ∧
  (∀ k < 256, rom.getD k 0 < rom.getD (k + 1) 0) ∧ rom.sum = 16852194 ∧
  rom.getD 128 0 = 65536 ∧ rom.getD 0 0 = 61858 ∧ rom.getD 256 0 = 69433 ∧
  rom.getD 64 0 = 63670 ∧ rom.getD 192 0 = 67456 ∧ rom.getD 127 0 = 65506 ∧ rom.getD 129 0 = 65566

/-- R65: in every state of the invariant each table is read inside its index range, so what a read gives is an entry
of the table and never the model's free value (log 6). -/
def Obligations.TablesAreReadInRange : Prop :=
  ∀ s : State, StateLegal s →
    (∀ i, (romContents .detune)[((s.osc.get i).det.toInt + 128).toNat]? =
      some (romRead .detune ((s.osc.get i).det.toInt + 128))) ∧
    (romContents .ratio)[s.voice.act.ratioIdx.toNat]? = some (romRead .ratio (s.voice.act.ratioIdx.toNat : Int)) ∧
    (∀ key : Nat, key ≤ 127 → (romContents .freq)[key]? = some (romRead .freq (key : Int))) ∧
    (∀ phase period : Int, 0 ≤ phase → phase < period →
      (romContents .sine)[(fdiv (phase * 360) period).toNat]? = some (romRead .sine (fdiv (phase * 360) period)))

/-- R153, R154: `SET_POT` writes the pending value of one channel, by its rescale, and nothing else; an unknown channel
or a raw value above 1023 is ignored. -/
def Obligations.SetPotWritesOnePendingControl : Prop :=
  ∀ (paramId raw : BitVec 16) (s : State), s.cfg.Valid →
    ∃ t, exec (.setPot paramId raw) s = .next t ∧
      let p := s.voice.pend
      let p' := t.voice.pend
      let r := raw.toNat
      (3 < paramId.toNat ∨ 1023 < r → t = s) ∧
      (paramId.toNat ≤ 3 → r ≤ 1023 → OnlyVoice s t ∧ t.voice = { s.voice with pend := p' }) ∧
      (paramId.toNat = 0 → r ≤ 1023 → waveNumber p'.wave = r / 256 ∧ p' = { p with wave := p'.wave }) ∧
      (paramId.toNat = 1 → r ≤ 1023 → p'.intensity.toNat = r * 65536 / 1023 ∧
        p' = { p with intensity := p'.intensity }) ∧
      (paramId.toNat = 2 → r ≤ 1023 →
        p'.rate.toNat = s.cfg.rateLo + r * (s.cfg.rateHi - s.cfg.rateLo) / 1023 ∧
        p' = { p with rate := p'.rate }) ∧
      (paramId.toNat = 3 → r ≤ 1023 → p'.ratioIdx.toNat = r / 128 ∧ p' = { p with ratioIdx := p'.ratioIdx })

/-- R155: the two linear rescales cover their ranges, end to end, with the rule's values. -/
def Obligations.PotRescales : Prop :=
  (∀ raw : Int, 0 ≤ raw → raw ≤ 1023 →
    raw * 65536 < 2 ^ 26 ∧ IsFloor (potIntensity raw) (raw * 65536) 1023 ∧ 0 ≤ potIntensity raw ∧ potIntensity raw ≤ 65536 ∧
    ∀ c : Cfg, c.Valid →
      raw * ((c.rateHi : Int) - (c.rateLo : Int)) < 2 ^ 41 ∧
      IsFloor (potRate c raw - (c.rateLo : Int)) (raw * ((c.rateHi : Int) - (c.rateLo : Int))) 1023 ∧
      (c.rateLo : Int) ≤ potRate c raw ∧ potRate c raw ≤ (c.rateHi : Int)) ∧
  (∀ c : Cfg, c.Valid → potRate c 0 = (c.rateLo : Int) ∧ potRate c 1023 = (c.rateHi : Int)) ∧
  potIntensity 0 = 0 ∧ potIntensity 1 = 64 ∧ potIntensity 511 = 32735 ∧ potIntensity 512 = 32800 ∧
  potIntensity 1022 = 65471 ∧ potIntensity 1023 = 65536 ∧
  potRate Cfg.default 0 = 1024 ∧ potRate Cfg.default 1 = 1183 ∧ potRate Cfg.default 511 = 82352 ∧
  potRate Cfg.default 512 = 82511 ∧ potRate Cfg.default 1022 = 163680 ∧ potRate Cfg.default 1023 = 163840

/-- R157: `NOTE_ON` of a key up to 127 makes it the active key, with its entry of the frequency table as the target
frequency, and touches nothing else; a larger key is ignored. -/
def Obligations.NoteOnSetsKeyAndFrequency : Prop :=
  ∀ (key : BitVec 32) (s : State), ∃ t, exec (.noteOn key) s = .next t ∧
    (key.toNat ≤ 127 → t.voice.keyActive = true ∧ t.voice.key.toNat = key.toNat ∧
      (romContents .freq)[key.toNat]? = some (t.voice.tfreq.toNat : Int) ∧
      t.voice = { s.voice with keyActive := true, key := t.voice.key, tfreq := t.voice.tfreq } ∧
      OnlyVoice s t) ∧
    (127 < key.toNat → t = s)

/-- R158: `NOTE_OFF` of the active key clears it and leaves the target frequency and everything else; any other key,
or any key while none is active, changes nothing. -/
def Obligations.NoteOffClearsOnlyTheActiveKey : Prop :=
  ∀ (key : BitVec 32) (s : State), ∃ t, exec (.noteOff key) s = .next t ∧
    (s.voice.keyActive = true → key.toNat = s.voice.key.toNat →
      t.voice = { s.voice with keyActive := false, key := 0 } ∧ OnlyVoice s t) ∧
    (s.voice.keyActive = false ∨ key.toNat ≠ s.voice.key.toNat → t = s)

/-- R161: with no key active `RENDER` emits `OUT_NULL` on both channels and touches no oscillator; the latch and the
frame counter still run (R160, R166). -/
def Obligations.SilentRenderEmitsNull : Prop :=
  ∀ s : State, s.cfg.Valid → s.voice.keyActive = false →
    ∃ t x last, exec .render s = .next t ∧ t.out = .aud x x last ∧ x.toInt = s.cfg.outNull ∧
      t.osc = s.osc ∧ t.cfg = s.cfg ∧ t.midi = s.midi ∧ t.err = s.err ∧ t.cmdPort = s.cmdPort ∧
      t.voice = { s.voice with
        act := (if s.voice.frameCtr = 0 then s.voice.pend else s.voice.act), frameCtr := t.voice.frameCtr } ∧
      t.voice.frameCtr.toNat = (s.voice.frameCtr.toNat + 1) % s.cfg.bufFrames

/-- R159, R162, R163: with a key active `RENDER` latches, pushes the six oscillator fields, ticks LFO, MOD and CAR in
that order by the same tick as `OSC_TICK`, and emits the mapped carrier level on both channels. -/
def Obligations.ActiveRenderPushesTicksAndMaps : Prop :=
  ∀ s : State, StateLegal s → s.voice.keyActive = true →
    ∃ p a b c t x last ratio,
      let act := if s.voice.frameCtr = 0 then s.voice.pend else s.voice.act
      (romContents .ratio)[act.ratioIdx.toNat]? = some ratio ∧
      p.osc.lfo = { s.osc.lfo with base := if 0 < act.rate.toNat then act.rate else s.osc.lfo.base } ∧
      (p.osc.mod.base.toNat : Int) = (s.voice.tfreq.toNat : Int) * ratio ∧
      p.osc.mod = { s.osc.mod with base := p.osc.mod.base, depth := act.intensity } ∧
      p.osc.car = { s.osc.car with wave := act.wave, base := s.voice.tfreq, depth := act.intensity } ∧
      p = { s with osc := p.osc, voice := { s.voice with act := act } } ∧
      exec (.oscTick .lfo) p = .next a ∧ exec (.oscTick .mod) a = .next b ∧
      exec (.oscTick .car) b = .next c ∧
      exec .render s = .next t ∧ t.out = .aud x x last ∧
      x.toInt = mapLevel s.cfg (c.osc.get .car).level.toInt ∧
      (last = true ↔ s.voice.frameCtr.toNat + 1 = s.cfg.bufFrames) ∧
      t.voice.frameCtr.toNat = (s.voice.frameCtr.toNat + 1) % s.cfg.bufFrames ∧
      t = { c with voice := { c.voice with frameCtr := t.voice.frameCtr }, out := .aud x x last }

/-- R160: the four active controls are copied from the pending ones together, by a `RENDER` that starts a buffer,
whether or not a key is active; no other `RENDER` and no other command writes them, and the key is not latched. -/
def Obligations.ControlsAreLatchedAtBufferStart : Prop :=
  ∀ (i : Instr) (s t : State), exec i s = .next t →
    (i = .render → s.voice.frameCtr = 0 → t.voice.act = s.voice.pend) ∧
    (i = .render → s.voice.frameCtr ≠ 0 → t.voice.act = s.voice.act) ∧
    (i ≠ .render → t.voice.act = s.voice.act) ∧
    (i = .render → t.voice.keyActive = s.voice.keyActive ∧ t.voice.key = s.voice.key ∧
      t.voice.tfreq = s.voice.tfreq)

/-- R164: the output map, its rounding, its ends, its range, its monotony, and that `OUT_NULL` plays no part. -/
def Obligations.OutputMap : Prop :=
  (∀ c : Cfg, c.Valid →
    mapLevel c (-65536) = c.outLow ∧ mapLevel c 65536 = c.outHigh ∧
    (∀ l : Int, -65536 ≤ l → l ≤ 65536 →
      (c.outHigh - c.outLow) * (l + 65536) < 2 ^ 50 ∧
      IsFloor (mapLevel c l - c.outLow) ((c.outHigh - c.outLow) * (l + 65536) + 65536) 131072 ∧
      c.outLow ≤ mapLevel c l ∧ mapLevel c l ≤ c.outHigh ∧
      (∀ l' : Int, l ≤ l' → mapLevel c l ≤ mapLevel c l') ∧
      (∀ x : Int, mapLevel { c with outNull := x } l = mapLevel c l))) ∧
  mapLevel Cfg.default 0 = 0 ∧ mapLevel Cfg.default (-1) = -1 ∧ mapLevel Cfg.default 1 = 0 ∧
  mapLevel Cfg.default 32768 = 16383 ∧ mapLevel Cfg.default 65535 = 32767 ∧
  mapLevel Cfg.default (-65535) = -32768 ∧ mapLevel Cfg.default 38521 = 19260 ∧
  mapLevel Cfg.default (-38521) = -19261

/-- R165, R166: both channels carry one sample; `last` marks the frame that completes a buffer; the frame counter
advances by one modulo `BUF_FRAMES` in every `RENDER`, silent or not, and nothing else writes it; with one frame a
buffer every `RENDER` latches and is last. -/
def Obligations.RenderCountsFrames : Prop :=
  (∀ s : State, s.cfg.Valid → s.voice.frameCtr.toNat < s.cfg.bufFrames →
    ∃ t x last, exec .render s = .next t ∧ t.out = .aud x x last ∧
      (last = true ↔ s.voice.frameCtr.toNat = s.cfg.bufFrames - 1) ∧
      t.voice.frameCtr.toNat = (s.voice.frameCtr.toNat + 1) % s.cfg.bufFrames ∧
      (s.cfg.bufFrames = 1 → last = true ∧ t.voice.act = s.voice.pend)) ∧
  (∀ (i : Instr) (s t : State), i ≠ .render → exec i s = .next t → t.voice.frameCtr = s.voice.frameCtr)

/-- R94, R160, R165, R166: the commands `RENDER_BUFFER` stands for, run from the start of a buffer, are one audio
buffer: one frame each, `last` in the last frame alone, the frame counter back at 0, and the controls latched once, as
they stood at the start. -/
def Obligations.RenderBufferIsOneBuffer : Prop :=
  ∀ s : State, s.cfg.Valid → s.voice.frameCtr = 0 →
    s.cmdPort = (renderBuffer s.cfg).map (fun i => HostInput.cmd (encode i)) →
    ∃ t, runSteps s.cfg.bufFrames s = .next t ∧ t.cmdPort = [] ∧ t.voice.frameCtr = 0 ∧
      t.voice.act = s.voice.pend ∧ t.voice.pend = s.voice.pend ∧
      (emitted s.cfg.bufFrames s).length = s.cfg.bufFrames ∧
      ∀ (k : Nat) (o : Output), (emitted s.cfg.bufFrames s)[k]? = some o →
        ∃ x, o = .aud x x (decide (k + 1 = s.cfg.bufFrames))

/-- `n` frames move the frame counter by `n` modulo `BUF_FRAMES`, whatever notes sound (R166, R246). -/
def Obligations.FrameCounterAfterManyRenders : Prop :=
  ∀ (n : Nat) (s : State), s.cfg.Valid → s.voice.frameCtr.toNat < s.cfg.bufFrames →
    ∃ t, execTimes .render n s = .next t ∧ t.cfg = s.cfg ∧
      t.voice.frameCtr.toNat = (s.voice.frameCtr.toNat + n) % s.cfg.bufFrames

/-- The document's property 7 (R161): while no key is active every one of `n` frames is `OUT_NULL`, and the oscillators
are frozen, with no drift. -/
def Obligations.SilenceDoesNotDrift : Prop :=
  ∀ (n : Nat) (s : State), s.cfg.Valid → s.voice.keyActive = false →
    s.cmdPort = List.replicate n (.cmd 0xB000000000) →
    ∃ t, runSteps n s = .next t ∧ t.osc = s.osc ∧ t.voice.keyActive = false ∧
      (emitted n s).length = n ∧
      ∀ o ∈ emitted n s, ∃ x last, o = .aud x x last ∧ x.toInt = s.cfg.outNull

/-- R182, as the table of R183: the decoder's transition table, complete over states and byte classes. A byte that completes a message
dispatches it as `MIDI_PACKET` would. -/
def Obligations.MidiByteTransitions : Prop :=
  ∀ (b : Byte) (s : State), ∃ t, exec (.midiByte b) s = .next t ∧
    (s.midi.state = .awaitingStatus → b.toNat < 0x80 → t = s) ∧
    (0x80 ≤ b.toNat → b.toNat < 0xA0 →
      t = { s with midi := { s.midi with state := .awaitingData1, status := b } }) ∧
    (0xA0 ≤ b.toNat → t = { s with midi := { s.midi with state := .awaitingStatus } }) ∧
    (s.midi.state = .awaitingData1 → b.toNat < 0x80 →
      t = { s with midi := { s.midi with state := .awaitingData2, data1 := b } }) ∧
    (s.midi.state = .awaitingData2 → b.toNat < 0x80 →
      exec (.midiPacket s.midi.status s.midi.data1 b)
        { s with midi := { s.midi with state := .awaitingStatus } } = .next t)

/-- R186 with the four branches of `Dispatch` (R184): a packet acts as `NOTE_ON`, as `NOTE_OFF`, or not at all, and
the decoder registers neither matter nor change. -/
def Obligations.MidiPacketActsAsNote : Prop :=
  ∀ (b0 b1 b2 : Byte) (s : State),
    (b0.toNat / 16 = 9 → 0 < b2.toNat →
      exec (.midiPacket b0 b1 b2) s = exec (.noteOn (b1.setWidth 32)) s) ∧
    (b0.toNat / 16 = 9 → b2.toNat = 0 →
      exec (.midiPacket b0 b1 b2) s = exec (.noteOff (b1.setWidth 32)) s) ∧
    (b0.toNat / 16 = 8 → exec (.midiPacket b0 b1 b2) s = exec (.noteOff (b1.setWidth 32)) s) ∧
    (b0.toNat / 16 ≠ 8 → b0.toNat / 16 ≠ 9 → exec (.midiPacket b0 b1 b2) s = .next s) ∧
    (∀ m : Midi, ∃ t, exec (.midiPacket b0 b1 b2) s = .next t ∧ t.midi = s.midi ∧
      exec (.midiPacket b0 b1 b2) (withMidi s m) = .next (withMidi t m))

/-- R187, the document's property 5: the bytes of a Note On for key 60, one at a time. -/
def Obligations.MidiDecodeRoundTrip : Prop :=
  ∀ (s : State) (rest : List HostInput), s.midi.state = .awaitingStatus →
    s.cmdPort = .cmd 0xC000000090 :: .cmd 0xC00000003C :: .cmd 0xC000000040 :: rest →
    ∃ a b t, runSteps 1 s = .next a ∧ runSteps 2 s = .next b ∧ runSteps 3 s = .next t ∧
      a.voice = s.voice ∧ a.midi.state = .awaitingData1 ∧ a.midi.status = 0x90 ∧
      b.voice = s.voice ∧ b.midi.state = .awaitingData2 ∧ b.midi.data1 = 0x3C ∧
      t.voice = { s.voice with keyActive := true, key := 60, tfreq := 2143237 } ∧
      t.midi.state = .awaitingStatus ∧ t.osc = s.osc ∧ t.err = s.err ∧ t.cmdPort = rest

/-- R188, the document's property 6: a status byte where a velocity was expected drops the partial message, and the
message it starts is decoded. -/
def Obligations.MidiResync : Prop :=
  ∀ (s : State) (rest : List HostInput), s.midi.state = .awaitingStatus →
    s.cmdPort = .cmd 0xC000000090 :: .cmd 0xC00000003C :: .cmd 0xC000000091 :: .cmd 0xC000000040 ::
      .cmd 0xC000000050 :: rest →
    ∃ a b t, runSteps 3 s = .next a ∧ runSteps 4 s = .next b ∧ runSteps 5 s = .next t ∧
      a.voice = s.voice ∧ a.midi.state = .awaitingData1 ∧ a.midi.status = 0x91 ∧
      b.voice = s.voice ∧ b.midi.state = .awaitingData2 ∧ b.midi.data1 = 0x40 ∧
      t.voice = { s.voice with keyActive := true, key := 64, tfreq := 2700309 } ∧
      t.midi.state = .awaitingStatus ∧ t.osc = s.osc ∧ t.err = s.err ∧ t.cmdPort = rest

/-- R200: `NOP` holds, and the all-zero word is its one encoding. -/
def Obligations.NopHolds : Prop :=
  (∀ s : State, exec .nop s = .next s) ∧ (∀ w : CmdWord, decode w = .ok .nop ↔ w = 0)

/-- R201: the status word, bit by bit; nothing is written and the flags are not cleared. -/
def Obligations.StatusWordFields : Prop :=
  ∀ s : State, ∃ t v, exec .status s = .next t ∧ t.out = .rsp v ∧ OnlyOut s t ∧
    v.getLsbD 0 = s.err.illegal ∧ v.getLsbD 1 = s.err.contract ∧ v.getLsbD 2 = false ∧
    v.getLsbD 3 = s.voice.keyActive ∧ v.extractLsb' 4 7 = s.voice.key ∧
    (v.extractLsb' 11 2).toNat =
      (match s.midi.state with
        | .awaitingStatus => 0
        | .awaitingData1 => 1
        | .awaitingData2 => 2) ∧
    v.extractLsb' 13 19 = 0

/-- The write columns of R40: for each register, the only commands that may change it. -/
def Obligations.CommandsWriteOnlyTheirRow : Prop :=
  ∀ (i : Instr) (s t : State), exec i s = .next t →
    (∀ j, (t.osc.get j).wave ≠ (s.osc.get j).wave → (∃ w, i = .oscSetWaveform j w) ∨ (i = .render ∧ j = .car)) ∧
    (∀ j, (t.osc.get j).base ≠ (s.osc.get j).base → (∃ hz, i = .oscSetFreq j hz) ∨ i = .render) ∧
    (∀ j, (t.osc.get j).det ≠ (s.osc.get j).det → ∃ d, i = .oscSetDetune j d) ∧
    (∀ j, (t.osc.get j).depth ≠ (s.osc.get j).depth →
      (∃ x, i = .oscSetModdepth j x) ∨ (i = .render ∧ j ≠ .lfo)) ∧
    (∀ j, ((t.osc.get j).phase ≠ (s.osc.get j).phase ∨ (t.osc.get j).level ≠ (s.osc.get j).level) →
      i = .oscTick j ∨ i = .render) ∧
    ((t.voice.keyActive ≠ s.voice.keyActive ∨ t.voice.key ≠ s.voice.key) →
      (∃ k, i = .noteOn k) ∨ (∃ k, i = .noteOff k) ∨ (∃ b, i = .midiByte b) ∨
      (∃ b0 b1 b2, i = .midiPacket b0 b1 b2)) ∧
    (t.voice.tfreq ≠ s.voice.tfreq →
      (∃ k, i = .noteOn k) ∨ (∃ b, i = .midiByte b) ∨ (∃ b0 b1 b2, i = .midiPacket b0 b1 b2)) ∧
    (t.voice.pend ≠ s.voice.pend → ∃ p r, i = .setPot p r) ∧
    ((t.voice.act ≠ s.voice.act ∨ t.voice.frameCtr ≠ s.voice.frameCtr) → i = .render) ∧
    (t.midi ≠ s.midi → ∃ b, i = .midiByte b) ∧
    (t.err.contract ≠ s.err.contract → (∃ j w, i = .oscSetWaveform j w) ∨ (∃ j d, i = .oscSetDetune j d) ∨
      (∃ j x, i = .oscSetModdepth j x)) ∧
    (t.out ≠ s.out → (∃ j, i = .oscReadLevel j) ∨ i = .render ∨ i = .status) ∧
    t.err.illegal = s.err.illegal ∧ t.cfg = s.cfg ∧ t.cmdPort = s.cmdPort

/-- The response port answers `OSC_READ_LEVEL` and `STATUS` and nothing else, the audio port `RENDER` and nothing
else, with equal channels (R82, R83). -/
def Obligations.PortsAnswerOnlyTheirCommands : Prop :=
  ∀ (s t : State) (w : CmdWord) (rest : List HostInput),
    s.cmdPort = .cmd w :: rest → step s = .next t →
    ((∃ v, t.out = .rsp v) ↔ decode w = .ok .status ∨ ∃ i, decode w = .ok (.oscReadLevel i)) ∧
    ((∃ l r last, t.out = .aud l r last) ↔ decode w = .ok .render) ∧
    (∀ l r last, t.out = .aud l r last → l = r)

/-- A pending control has no effect until a `RENDER` latches it (R33, R39, R245): with other pending controls every
other command answers the same and leaves everything but the pending controls the same. -/
def Obligations.PendingControlsWaitForTheLatch : Prop :=
  ∀ (i : Instr) (s t : State) (p : Controls), ¬ (i = .render ∧ s.voice.frameCtr = 0) →
    exec i s = .next t → ∃ p', exec i (withPend s p) = .next (withPend t p')

/-- A stale target frequency never reaches anything (R248): while no key is active, two states that differ in it alone
answer every command alike, and still differ in it alone or not at all. -/
def Obligations.StaleFrequencyIsNeverUsed : Prop :=
  ∀ (i : Instr) (s t : State) (f : BitVec 31), s.voice.keyActive = false → exec i s = .next t →
    exec i (withTfreq s f) = .next t ∨
    (t.voice.keyActive = false ∧ exec i (withTfreq s f) = .next (withTfreq t f))
end

