-- ==== Sys2Proof/Laws/Decode.lean ====
section
/-! SUPPORT. The fields of an encoded command are the fields that were put into it (R84), and a word is its fields. -/

namespace Sys2Proof

@[simp] theorem opcField_encode (i : Instr) : opcField (encode i) = i.mnemonic.opcode :=
  BitVec.extractLsb'_append_eq_left

@[simp] theorem oscField_encode (i : Instr) : oscField (encode i) = i.oscSelect := by
  unfold oscField encode
  rw [BitVec.extractLsb'_append_eq_of_add_le (by norm_num)]
  exact BitVec.extractLsb'_append_eq_left

@[simp] theorem zField_encode (i : Instr) : zField (encode i) = 0 := by
  unfold zField encode
  rw [BitVec.extractLsb'_append_eq_of_add_le (by norm_num),
    BitVec.extractLsb'_append_eq_of_add_le (by norm_num)]
  exact BitVec.extractLsb'_append_eq_left

@[simp] theorem argField_encode (i : Instr) : argField (encode i) = i.arg := by
  unfold argField encode
  rw [BitVec.extractLsb'_append_eq_of_add_le (by norm_num),
    BitVec.extractLsb'_append_eq_of_add_le (by norm_num)]
  exact BitVec.extractLsb'_append_eq_right

/-- A word is its four fields, most significant first (R84). -/
theorem word_eq_fields (w : CmdWord) :
    opcField w ++ (oscField w ++ (zField w ++ argField w)) = w := by
  apply BitVec.eq_of_getLsbD_eq
  intro j hj
  simp only [opcField, oscField, zField, argField, BitVec.getLsbD_append, BitVec.getLsbD_extractLsb']
  split_ifs with h1 h2 h3 <;> grind

@[simp] theorem OscId.ofSelect_select (i : OscId) : OscId.ofSelect i.select = some i := by
  cases i <;> rfl

@[simp] theorem Mnemonic.ofOpcode_opcode (m : Mnemonic) : Mnemonic.ofOpcode m.opcode = some m := by
  cases m <;> rfl

/-- The must-be-zero bits of an encoded command are zero (R85). -/
@[simp] theorem arg_and_mustBeZero (i : Instr) : i.arg &&& i.mnemonic.format.mustBeZero = 0 := by
  cases i with
  | midiByte b =>
    apply BitVec.eq_of_getLsbD_eq
    intro j hj
    simp only [Instr.arg, Instr.mnemonic, Mnemonic.format, Format.mustBeZero, BitVec.getLsbD_and,
      BitVec.getLsbD_append]
    by_cases h : j < 8
    · have hm : ∀ k < 8, (0xFFFFFF00#32).getLsbD k = false := by decide
      have := hm j h
      simp_all
    · simp [h]
  | midiPacket b0 b1 b2 =>
    apply BitVec.eq_of_getLsbD_eq
    intro j hj
    simp only [Instr.arg, Instr.mnemonic, Mnemonic.format, Format.mustBeZero, BitVec.getLsbD_and]
    by_cases h : j < 24
    · have hm : ∀ k < 24, (0xFF000000#32).getLsbD k = false := by decide
      have := hm j h
      simp_all
    · simp only [BitVec.getLsbD_append]
      simp [h]
  | _ => simp [Instr.arg, Instr.mnemonic, Mnemonic.format, Format.mustBeZero]

/-- The row `OPC` selects has that opcode (R86). -/
theorem Mnemonic.opcode_of_ofOpcode {opc : BitVec 4} {m : Mnemonic} (h : Mnemonic.ofOpcode opc = some m) :
    m.opcode = opc := by
  have := List.find?_some h
  simpa using this

/-- Everything decoding can answer: the four ordered rejections of R88, or the row's command. -/
theorem decode_cases (w : CmdWord) :
    (zField w ≠ 0 ∧ decode w = .error .zNotZero) ∨
    (zField w = 0 ∧ Mnemonic.ofOpcode (opcField w) = none ∧ decode w = .error .reservedOpcode) ∨
    (∃ m, zField w = 0 ∧ Mnemonic.ofOpcode (opcField w) = some m ∧
      m.format.oscOperand (oscField w) = none ∧ decode w = .error .oscField) ∨
    (∃ m i, zField w = 0 ∧ Mnemonic.ofOpcode (opcField w) = some m ∧
      m.format.oscOperand (oscField w) = some i ∧ argField w &&& m.format.mustBeZero ≠ 0 ∧
      decode w = .error .argNotZero) ∨
    (∃ m i, zField w = 0 ∧ Mnemonic.ofOpcode (opcField w) = some m ∧
      m.format.oscOperand (oscField w) = some i ∧ argField w &&& m.format.mustBeZero = 0 ∧
      decode w = .ok (m.withOperands i (argField w))) := by
  unfold decode
  by_cases hz : zField w = 0
  · cases hm : Mnemonic.ofOpcode (opcField w) with
    | none => exact .inr (.inl ⟨hz, rfl, by simp [hz]⟩)
    | some m =>
      cases ho : m.format.oscOperand (oscField w) with
      | none => exact .inr (.inr (.inl ⟨m, hz, rfl, ho, by simp [hz, ho]⟩))
      | some i =>
        by_cases ha : argField w &&& m.format.mustBeZero = 0
        · exact .inr (.inr (.inr (.inr ⟨m, i, hz, rfl, ho, ha, by simp [hz, ho, ha]⟩)))
        · exact .inr (.inr (.inr (.inl ⟨m, i, hz, rfl, ho, ha, by simpa [hz, ho] using ha⟩)))
  · exact .inl ⟨hz, if_pos hz⟩

/-- The mnemonic of a row's command is the row's. -/
@[simp] theorem Mnemonic.mnemonic_withOperands (m : Mnemonic) (i : OscId) (arg : BitVec 32) :
    (m.withOperands i arg).mnemonic = m := by
  cases m <;> rfl

end Sys2Proof
end

