-- ==== Sys2Proof/Laws/Operands.lean ====
section
/-! SUPPORT. What the domain tests of the three checked setters decide (R87, R210). -/

namespace Sys2Proof.Machine

@[simp] theorem waveInDomain_iff (w : BitVec 32) : waveInDomain w = true ↔ w.toNat ≤ 3 := by
  have h : waveInDomain w = true ↔ (w.toNat : Int) ≤ 3 := decide_eq_true_iff
  exact h.trans (by omega)

@[simp] theorem detuneInDomain_iff (d : BitVec 32) :
    detuneInDomain d = true ↔ -128 ≤ d.toInt ∧ d.toInt ≤ 128 :=
  decide_eq_true_iff

@[simp] theorem depthInDomain_iff (x : BitVec 32) : depthInDomain x = true ↔ x.toNat ≤ 65536 := by
  have h : depthInDomain x = true ↔ (x.toNat : Int) ≤ 65536 := decide_eq_true_iff
  exact h.trans (by omega)

end Sys2Proof.Machine
end

