-- ==== Sys2Proof/Laws/PerInstr.lean ====
section
/-! SUPPORT. Statements about commands as syntax, one lemma per constructor. -/

namespace Sys2Proof.Laws

/-- The encoded word carries the row's opcode (R86), zero in `Z`, an oscillator select its format allows (R84), and no
one in a must-be-zero bit of `ARG` (R85). -/
def EncodedFields.Statement (i : Instr) : Prop :=
  opcField (encode i) = i.mnemonic.opcode ∧ zField (encode i) = 0 ∧
  (i.mnemonic.format.oscOperand (oscField (encode i))).isSome = true ∧
  argField (encode i) &&& i.mnemonic.format.mustBeZero = 0

/-- The oscillator check is all a command has to show: the other fields are right for every command. -/
theorem EncodedFields.of_osc {i : Instr}
    (h : (i.mnemonic.format.oscOperand i.oscSelect).isSome = true) : EncodedFields.Statement i := by
  refine ⟨opcField_encode i, zField_encode i, ?_, ?_⟩
  · rw [oscField_encode]; exact h
  · rw [argField_encode]; exact arg_and_mustBeZero i

theorem EncodedFields.nop : EncodedFields.Statement .nop := of_osc rfl
theorem EncodedFields.oscSetWaveform (osc : OscId) (w : BitVec 32) :
    EncodedFields.Statement (.oscSetWaveform osc w) := of_osc (by cases osc <;> rfl)
theorem EncodedFields.oscSetFreq (osc : OscId) (hz : BitVec 32) :
    EncodedFields.Statement (.oscSetFreq osc hz) := of_osc (by cases osc <;> rfl)
theorem EncodedFields.oscSetDetune (osc : OscId) (d : BitVec 32) :
    EncodedFields.Statement (.oscSetDetune osc d) := of_osc (by cases osc <;> rfl)
theorem EncodedFields.oscSetModdepth (osc : OscId) (x : BitVec 32) :
    EncodedFields.Statement (.oscSetModdepth osc x) := of_osc (by cases osc <;> rfl)
theorem EncodedFields.oscTick (osc : OscId) : EncodedFields.Statement (.oscTick osc) :=
  of_osc (by cases osc <;> rfl)
theorem EncodedFields.oscReadLevel (osc : OscId) : EncodedFields.Statement (.oscReadLevel osc) :=
  of_osc (by cases osc <;> rfl)
theorem EncodedFields.setPot (paramId raw : BitVec 16) :
    EncodedFields.Statement (.setPot paramId raw) := of_osc rfl
theorem EncodedFields.noteOn (key : BitVec 32) : EncodedFields.Statement (.noteOn key) := of_osc rfl
theorem EncodedFields.noteOff (key : BitVec 32) : EncodedFields.Statement (.noteOff key) := of_osc rfl
theorem EncodedFields.render : EncodedFields.Statement .render := of_osc rfl
theorem EncodedFields.midiByte (b : Byte) : EncodedFields.Statement (.midiByte b) := of_osc rfl
theorem EncodedFields.midiPacket (b0 b1 b2 : Byte) :
    EncodedFields.Statement (.midiPacket b0 b1 b2) := of_osc rfl
theorem EncodedFields.status : EncodedFields.Statement .status := of_osc rfl

end Sys2Proof.Laws
end

