-- ==== Sys2Proof/Laws/Roms.lean ====
section
/-! SUPPORT. What a table read gives inside the table: its size, and the range of its entries (R61 to R64). -/

namespace Sys2Proof.Machine

/-- A read inside a table gives an entry of the table, never the free value (R18). -/
theorem romRead_mem (T : Rom) {k : Int} (h0 : 0 ≤ k) (h1 : k < (romContents T).length) :
    romRead T k ∈ romContents T := by
  obtain ⟨n, rfl⟩ := Int.eq_ofNat_of_zero_le h0
  have hn : n < (romContents T).length := by omega
  simp [romRead, hn]

theorem sineRom_length : (romContents .sine).length = 360 := by decide +kernel
theorem detuneRom_length : (romContents .detune).length = 257 := by decide +kernel
theorem freqRom_length : (romContents .freq).length = 128 := by decide +kernel
theorem ratioRom_length : (romContents .ratio).length = 8 := by decide +kernel

theorem sineRom_all : ∀ x ∈ romContents .sine, -65536 ≤ x ∧ x ≤ 65536 := by decide +kernel
theorem detuneRom_all : ∀ x ∈ romContents .detune, 61858 ≤ x ∧ x ≤ 69433 := by decide +kernel
theorem freqRom_all : ∀ x ∈ romContents .freq, 66976 ≤ x ∧ x ≤ 102759265 := by decide +kernel
theorem ratioRom_all : ∀ x ∈ romContents .ratio, 1 ≤ x ∧ x ≤ 13 := by decide +kernel

theorem romRead_sine_range {k : Int} (h0 : 0 ≤ k) (h1 : k < 360) :
    -65536 ≤ romRead .sine k ∧ romRead .sine k ≤ 65536 :=
  sineRom_all _ (romRead_mem .sine h0 (by rw [sineRom_length]; exact_mod_cast h1))

theorem romRead_detune_range {k : Int} (h0 : 0 ≤ k) (h1 : k < 257) :
    61858 ≤ romRead .detune k ∧ romRead .detune k ≤ 69433 :=
  detuneRom_all _ (romRead_mem .detune h0 (by rw [detuneRom_length]; exact_mod_cast h1))

theorem romRead_freq_range {k : Int} (h0 : 0 ≤ k) (h1 : k < 128) :
    66976 ≤ romRead .freq k ∧ romRead .freq k ≤ 102759265 :=
  freqRom_all _ (romRead_mem .freq h0 (by rw [freqRom_length]; exact_mod_cast h1))

theorem romRead_ratio_range {k : Int} (h0 : 0 ≤ k) (h1 : k < 8) :
    1 ≤ romRead .ratio k ∧ romRead .ratio k ≤ 13 :=
  ratioRom_all _ (romRead_mem .ratio h0 (by rw [ratioRom_length]; exact_mod_cast h1))

end Sys2Proof.Machine
end

