-- ==== Sys2Proof/Laws/State.lean ====
section
/-! SUPPORT. One lemma per field per update of State, so that no later proof unfolds a record update. -/

namespace Sys2Proof.Machine

@[simp] theorem OscFile.get_set_self (f : OscFile) (i : OscId) (o : Osc) : (f.set i o).get i = o := by
  cases i <;> rfl

theorem OscFile.get_set (f : OscFile) (i j : OscId) (o : Osc) :
    (f.set i o).get j = if j = i then o else f.get j := by
  cases i <;> cases j <;> rfl

@[simp] theorem OscFile.get_set_of_ne (f : OscFile) {i j : OscId} (o : Osc) (h : j ≠ i) :
    (f.set i o).get j = f.get j := by
  rw [OscFile.get_set, if_neg h]

@[simp] theorem OscFile.set_get (f : OscFile) (i : OscId) : f.set i (f.get i) = f := by
  cases i <;> rfl

@[simp] theorem OscFile.set_set (f : OscFile) (i : OscId) (a b : Osc) : (f.set i a).set i b = f.set i b := by
  cases i <;> rfl

theorem OscFile.ext_get {f g : OscFile} (h : ∀ i, f.get i = g.get i) : f = g := by
  have hl := h .lfo
  have hm := h .mod
  have hc := h .car
  cases f
  cases g
  simp_all [OscFile.get]

section setOsc
variable (s : State) (i : OscId) (o : Osc)

@[simp] theorem State.setOsc_cfg : (s.setOsc i o).cfg = s.cfg := rfl
@[simp] theorem State.setOsc_osc : (s.setOsc i o).osc = s.osc.set i o := rfl
@[simp] theorem State.setOsc_voice : (s.setOsc i o).voice = s.voice := rfl
@[simp] theorem State.setOsc_midi : (s.setOsc i o).midi = s.midi := rfl
@[simp] theorem State.setOsc_err : (s.setOsc i o).err = s.err := rfl
@[simp] theorem State.setOsc_cmdPort : (s.setOsc i o).cmdPort = s.cmdPort := rfl
@[simp] theorem State.setOsc_out : (s.setOsc i o).out = s.out := rfl

end setOsc

section raise
variable (c : Condition) (s : State)

@[simp] theorem raise_cfg : (raise c s).cfg = s.cfg := by cases c <;> rfl
@[simp] theorem raise_osc : (raise c s).osc = s.osc := by cases c <;> rfl
@[simp] theorem raise_voice : (raise c s).voice = s.voice := by cases c <;> rfl
@[simp] theorem raise_midi : (raise c s).midi = s.midi := by cases c <;> rfl
@[simp] theorem raise_cmdPort : (raise c s).cmdPort = s.cmdPort := by cases c <;> rfl
@[simp] theorem raise_out : (raise c s).out = s.out := by cases c <;> rfl
@[simp] theorem raise_illegal_illegal : (raise .illegalCommand s).err.illegal = true := rfl
@[simp] theorem raise_illegal_contract : (raise .illegalCommand s).err.contract = s.err.contract := rfl
@[simp] theorem raise_contract_illegal : (raise .contractViolation s).err.illegal = s.err.illegal := rfl
@[simp] theorem raise_contract_contract : (raise .contractViolation s).err.contract = true := rfl

end raise

section emit
variable (v l r : PortWord) (last : Bool) (s : State)

@[simp] theorem emitRsp_cfg : (emitRsp v s).cfg = s.cfg := rfl
@[simp] theorem emitRsp_osc : (emitRsp v s).osc = s.osc := rfl
@[simp] theorem emitRsp_voice : (emitRsp v s).voice = s.voice := rfl
@[simp] theorem emitRsp_midi : (emitRsp v s).midi = s.midi := rfl
@[simp] theorem emitRsp_err : (emitRsp v s).err = s.err := rfl
@[simp] theorem emitRsp_cmdPort : (emitRsp v s).cmdPort = s.cmdPort := rfl
@[simp] theorem emitRsp_out : (emitRsp v s).out = .rsp v := rfl
@[simp] theorem emitAud_cfg : (emitAud l r last s).cfg = s.cfg := rfl
@[simp] theorem emitAud_osc : (emitAud l r last s).osc = s.osc := rfl
@[simp] theorem emitAud_voice : (emitAud l r last s).voice = s.voice := rfl
@[simp] theorem emitAud_midi : (emitAud l r last s).midi = s.midi := rfl
@[simp] theorem emitAud_err : (emitAud l r last s).err = s.err := rfl
@[simp] theorem emitAud_cmdPort : (emitAud l r last s).cmdPort = s.cmdPort := rfl
@[simp] theorem emitAud_out : (emitAud l r last s).out = .aud l r last := rfl

end emit

section inputs
variable (rest : List HostInput) (s : State)

@[simp] theorem accept_cfg : (accept rest s).cfg = s.cfg := rfl
@[simp] theorem accept_osc : (accept rest s).osc = s.osc := rfl
@[simp] theorem accept_voice : (accept rest s).voice = s.voice := rfl
@[simp] theorem accept_midi : (accept rest s).midi = s.midi := rfl
@[simp] theorem accept_err : (accept rest s).err = s.err := rfl
@[simp] theorem accept_cmdPort : (accept rest s).cmdPort = rest := rfl
@[simp] theorem accept_out : (accept rest s).out = .none := rfl
@[simp] theorem idle_cfg : (idle s).cfg = s.cfg := rfl
@[simp] theorem idle_osc : (idle s).osc = s.osc := rfl
@[simp] theorem idle_voice : (idle s).voice = s.voice := rfl
@[simp] theorem idle_midi : (idle s).midi = s.midi := rfl
@[simp] theorem idle_err : (idle s).err = s.err := rfl
@[simp] theorem idle_cmdPort : (idle s).cmdPort = s.cmdPort := rfl
@[simp] theorem idle_out : (idle s).out = .none := rfl
@[simp] theorem takeReset_cfg : (takeReset rest s).cfg = s.cfg := rfl
@[simp] theorem takeReset_osc : (takeReset rest s).osc = (State.resetOf s.cfg).osc := rfl
@[simp] theorem takeReset_voice : (takeReset rest s).voice = (State.resetOf s.cfg).voice := rfl
@[simp] theorem takeReset_midi : (takeReset rest s).midi = (State.resetOf s.cfg).midi := rfl
@[simp] theorem takeReset_err : (takeReset rest s).err = (State.resetOf s.cfg).err := rfl
@[simp] theorem takeReset_cmdPort : (takeReset rest s).cmdPort = rest := rfl
@[simp] theorem takeReset_out : (takeReset rest s).out = .none := rfl

end inputs

section latch
variable (s : State)

@[simp] theorem latchAtBufferStart_cfg : (latchAtBufferStart s).cfg = s.cfg := by
  unfold latchAtBufferStart; split <;> rfl
@[simp] theorem latchAtBufferStart_osc : (latchAtBufferStart s).osc = s.osc := by
  unfold latchAtBufferStart; split <;> rfl
@[simp] theorem latchAtBufferStart_midi : (latchAtBufferStart s).midi = s.midi := by
  unfold latchAtBufferStart; split <;> rfl
@[simp] theorem latchAtBufferStart_err : (latchAtBufferStart s).err = s.err := by
  unfold latchAtBufferStart; split <;> rfl
@[simp] theorem latchAtBufferStart_cmdPort : (latchAtBufferStart s).cmdPort = s.cmdPort := by
  unfold latchAtBufferStart; split <;> rfl
@[simp] theorem latchAtBufferStart_out : (latchAtBufferStart s).out = s.out := by
  unfold latchAtBufferStart; split <;> rfl
@[simp] theorem latchAtBufferStart_keyActive :
    (latchAtBufferStart s).voice.keyActive = s.voice.keyActive := by
  unfold latchAtBufferStart; split <;> rfl
@[simp] theorem latchAtBufferStart_key : (latchAtBufferStart s).voice.key = s.voice.key := by
  unfold latchAtBufferStart; split <;> rfl
@[simp] theorem latchAtBufferStart_tfreq : (latchAtBufferStart s).voice.tfreq = s.voice.tfreq := by
  unfold latchAtBufferStart; split <;> rfl
@[simp] theorem latchAtBufferStart_pend : (latchAtBufferStart s).voice.pend = s.voice.pend := by
  unfold latchAtBufferStart; split <;> rfl
@[simp] theorem latchAtBufferStart_frameCtr :
    (latchAtBufferStart s).voice.frameCtr = s.voice.frameCtr := by
  unfold latchAtBufferStart; split <;> rfl
@[simp] theorem latchAtBufferStart_act : (latchAtBufferStart s).voice.act =
    if s.voice.frameCtr = 0 then s.voice.pend else s.voice.act := by
  unfold latchAtBufferStart; split <;> rfl

end latch

section push
variable (s : State)

@[simp] theorem push_cfg : (push s).cfg = s.cfg := rfl
@[simp] theorem push_voice : (push s).voice = s.voice := rfl
@[simp] theorem push_midi : (push s).midi = s.midi := rfl
@[simp] theorem push_err : (push s).err = s.err := rfl
@[simp] theorem push_cmdPort : (push s).cmdPort = s.cmdPort := rfl
@[simp] theorem push_out : (push s).out = s.out := rfl

end push

section countFrame
variable (s : State)

@[simp] theorem countFrame_cfg : (countFrame s).cfg = s.cfg := rfl
@[simp] theorem countFrame_osc : (countFrame s).osc = s.osc := rfl
@[simp] theorem countFrame_midi : (countFrame s).midi = s.midi := rfl
@[simp] theorem countFrame_err : (countFrame s).err = s.err := rfl
@[simp] theorem countFrame_cmdPort : (countFrame s).cmdPort = s.cmdPort := rfl
@[simp] theorem countFrame_out : (countFrame s).out = s.out := rfl
@[simp] theorem countFrame_keyActive : (countFrame s).voice.keyActive = s.voice.keyActive := rfl
@[simp] theorem countFrame_key : (countFrame s).voice.key = s.voice.key := rfl
@[simp] theorem countFrame_tfreq : (countFrame s).voice.tfreq = s.voice.tfreq := rfl
@[simp] theorem countFrame_pend : (countFrame s).voice.pend = s.voice.pend := rfl
@[simp] theorem countFrame_act : (countFrame s).voice.act = s.voice.act := rfl
@[simp] theorem countFrame_frameCtr : (countFrame s).voice.frameCtr =
    BitVec.ofNat 32 ((s.voice.frameCtr.toNat + 1) % s.cfg.bufFrames) := rfl

end countFrame

end Sys2Proof.Machine
end

