-- ==== Sys2Proof/Laws/Wave.lean ====
section
/-! SUPPORT. What `fdiv` and `WaveLookup` give (R18, R102 to R105). -/

namespace Sys2Proof.Machine

/-- `fdiv` is the floor (R18). -/
theorem fdiv_spec (a : Int) {b : Int} (h : 0 < b) : b * fdiv a b ≤ a ∧ a < b * fdiv a b + b := by
  unfold fdiv
  have h1 := Int.mul_ediv_add_emod a b
  have h2 := Int.emod_nonneg a (ne_of_gt h)
  have h3 := Int.emod_lt_of_pos a h
  constructor <;> linarith

theorem le_fdiv_iff (a k : Int) {b : Int} (h : 0 < b) : k ≤ fdiv a b ↔ k * b ≤ a := by
  unfold fdiv
  exact Int.le_ediv_iff_mul_le h

theorem fdiv_lt_iff (a k : Int) {b : Int} (h : 0 < b) : fdiv a b < k ↔ a < k * b := by
  unfold fdiv
  exact Int.ediv_lt_iff_lt_mul h

/-- The quotient a lookup shape takes stays inside the scale it divides (R102, R104, R105). -/
theorem fdiv_scale_range {phase period k : Int} (h0 : 0 ≤ phase) (h1 : phase < period) (hk : 0 < k) :
    0 ≤ fdiv (phase * k) period ∧ fdiv (phase * k) period < k := by
  have hp : 0 < period := by omega
  rw [le_fdiv_iff _ _ hp, fdiv_lt_iff _ _ hp]
  constructor
  · rw [zero_mul]; positivity
  · rw [mul_comm k]; exact mul_lt_mul_of_pos_right h1 hk

theorem sineLevel_range {phase period : Int} (h0 : 0 ≤ phase) (h1 : phase < period) :
    -65536 ≤ sineLevel phase period ∧ sineLevel phase period ≤ 65536 := by
  have h := fdiv_scale_range (k := 360) h0 h1 (by norm_num)
  exact romRead_sine_range h.1 h.2

theorem squareLevel_range (phase period : Int) :
    -65536 ≤ squareLevel phase period ∧ squareLevel phase period ≤ 65536 := by
  unfold squareLevel
  split <;> norm_num

theorem sawtoothLevel_range {phase period : Int} (h0 : 0 ≤ phase) (h1 : phase < period) :
    -65536 ≤ sawtoothLevel phase period ∧ sawtoothLevel phase period ≤ 65535 := by
  have h := fdiv_scale_range (k := 131072) h0 h1 (by norm_num)
  unfold sawtoothLevel
  omega

theorem triangleLevel_range {phase period : Int} (h0 : 0 ≤ phase) (h1 : phase < period) :
    -65536 ≤ triangleLevel phase period ∧ triangleLevel phase period ≤ 65536 := by
  have h := fdiv_scale_range (k := 262144) h0 h1 (by norm_num)
  have hp : 0 < period := by omega
  unfold triangleLevel
  dsimp only
  split
  · have hq : fdiv (phase * 262144) period < 131072 := by
      rw [fdiv_lt_iff _ _ hp]; omega
    omega
  · have hq : 131072 ≤ fdiv (phase * 262144) period := by
      rw [le_fdiv_iff _ _ hp]; omega
    omega

/-- Every level the lookup gives is in LEVEL format. -/
theorem waveLookup_range (w : Waveform) {phase period : Int} (h0 : 0 ≤ phase) (h1 : phase < period) :
    -65536 ≤ waveLookup w phase period ∧ waveLookup w phase period ≤ 65536 := by
  cases w
  · exact sineLevel_range h0 h1
  · exact squareLevel_range phase period
  · have h := sawtoothLevel_range h0 h1
    exact ⟨h.1, by simp only [waveLookup]; omega⟩
  · exact triangleLevel_range h0 h1

end Sys2Proof.Machine
end

