-- ==== Sys2Proof/Laws/Tick.lean ====
section
/-! SUPPORT. What the mixer and a tick can do (R123, R129, R130, R142 to R144). -/

namespace Sys2Proof.Machine

/-- For a positive frequency, a period is at least `k + 1` exactly when `2 * k * f + f <= 2 * N` (R143). -/
theorem lt_period_iff (c : Cfg) (k : Int) {f : Int} (hf : 0 < f) :
    k < period c f ↔ 2 * k * f + f ≤ 2 * sampleRateFreq c := by
  have h2 : 0 < 2 * f := by omega
  rw [← not_le, ← Int.lt_add_one_iff]
  unfold period rhu
  rw [fdiv_lt_iff _ _ h2]
  constructor <;> intro h <;> nlinarith

theorem period_nonneg (c : Cfg) {f : Int} (hf : 0 < f) : 0 ≤ period c f := by
  have h := (lt_period_iff c (-1) hf).2 (by unfold sampleRateFreq; omega)
  omega

theorem period_le (c : Cfg) {f : Int} (hf : 0 < f) (hc : 1 ≤ c.sampleRate) :
    period c f ≤ sampleRateFreq c := by
  by_contra hlt
  have h := (lt_period_iff c (sampleRateFreq c) hf).1 (not_le.1 hlt)
  have hN : 0 < sampleRateFreq c := by unfold sampleRateFreq; omega
  nlinarith [mul_le_mul_of_nonneg_left (show (1 : Int) ≤ f by omega) (le_of_lt hN)]

/-- Periods fit the 32-bit phase register (R143). -/
theorem period_lt (c : Cfg) {f : Int} (hf : 0 < f) (hc : c.Valid) : period c f < 2 ^ 31 := by
  have h := period_le c hf hc.sampleRate_pos
  have h' := hc.sampleRate_le
  unfold sampleRateFreq at h
  omega

/-- The advanced phase is inside the period (R130). -/
theorem nextPhase_range {p period : Int} (h0 : 0 ≤ p) (h1 : 1 ≤ period) :
    0 ≤ nextPhase p period ∧ nextPhase p period < period := by
  unfold nextPhase
  split <;> omega

theorem Osc.phaseVal_nonneg (o : Osc) : 0 ≤ o.phaseVal := by
  unfold Osc.phaseVal; omega

/-- A phase below `2^32` is stored whole (R27). -/
theorem phaseReg_toNat {p : Int} (h0 : 0 ≤ p) (h1 : p < 2 ^ 32) : ((phaseReg p).toNat : Int) = p := by
  simp only [phaseReg, BitVec.toNat_ofInt]
  have h : p % ((2 ^ 32 : Nat) : Int) = p := Int.emod_eq_of_lt h0 (by exact_mod_cast h1)
  rw [h]
  omega

/-- A level in LEVEL format is stored whole (R14, R28). -/
theorem levelReg_toInt {l : Int} (h0 : -65536 ≤ l) (h1 : l ≤ 65536) : (levelReg l).toInt = l := by
  simp only [levelReg, BitVec.toInt_ofInt]
  exact Int.bmod_eq_of_le (by omega) (by omega)

/-- What steps 5 and 6 of a tick store, for a period of at least one that fits 32 bits (R129). -/
theorem advance_spec (o : Osc) {P : Int} (h1 : 1 ≤ P) (h2 : P < 2 ^ 32) :
    (advance o P).phaseVal = nextPhase o.phaseVal P ∧
    (advance o P).levelVal = waveLookup o.wave (nextPhase o.phaseVal P) P := by
  have hp := nextPhase_range o.phaseVal_nonneg h1
  have hw := waveLookup_range o.wave hp.1 hp.2
  exact ⟨phaseReg_toNat hp.1 (by omega), levelReg_toInt hw.1 hw.2⟩

section advance
variable (o : Osc) (P : Int)

@[simp] theorem advance_wave : (advance o P).wave = o.wave := rfl
@[simp] theorem advance_base : (advance o P).base = o.base := rfl
@[simp] theorem advance_det : (advance o P).det = o.det := rfl
@[simp] theorem advance_depth : (advance o P).depth = o.depth := rfl

end advance

/-- Everything a tick can do: hold (R144), or advance one oscillator by a period of at least one (R129). -/
theorem tick_cases (i : OscId) (s : State) :
    ((instFreq s i ≤ 0 ∨ period s.cfg (instFreq s i) = 0) ∧ tick i s = s) ∨
    (0 < instFreq s i ∧ 1 ≤ period s.cfg (instFreq s i) ∧
      tick i s = s.setOsc i (advance (s.osc.get i) (period s.cfg (instFreq s i)))) := by
  unfold tick
  by_cases hf : instFreq s i ≤ 0
  · exact .inl ⟨.inl hf, by simp [hf]⟩
  · by_cases hp : period s.cfg (instFreq s i) = 0
    · exact .inl ⟨.inr hp, by simp [hf, hp]⟩
    · have hf' : 0 < instFreq s i := not_le.1 hf
      have := period_nonneg s.cfg hf'
      exact .inr ⟨hf', by omega, by simp [hf, hp]⟩

section tickFrame
variable (i : OscId) (s : State)

@[simp] theorem tick_cfg : (tick i s).cfg = s.cfg := by
  rcases tick_cases i s with ⟨-, h⟩ | ⟨-, -, h⟩ <;> (rw [h]; try rfl)
@[simp] theorem tick_voice : (tick i s).voice = s.voice := by
  rcases tick_cases i s with ⟨-, h⟩ | ⟨-, -, h⟩ <;> (rw [h]; try rfl)
@[simp] theorem tick_midi : (tick i s).midi = s.midi := by
  rcases tick_cases i s with ⟨-, h⟩ | ⟨-, -, h⟩ <;> (rw [h]; try rfl)
@[simp] theorem tick_err : (tick i s).err = s.err := by
  rcases tick_cases i s with ⟨-, h⟩ | ⟨-, -, h⟩ <;> (rw [h]; try rfl)
@[simp] theorem tick_cmdPort : (tick i s).cmdPort = s.cmdPort := by
  rcases tick_cases i s with ⟨-, h⟩ | ⟨-, -, h⟩ <;> (rw [h]; try rfl)
@[simp] theorem tick_out : (tick i s).out = s.out := by
  rcases tick_cases i s with ⟨-, h⟩ | ⟨-, -, h⟩ <;> (rw [h]; try rfl)

/-- A tick touches no oscillator but its own (R40). -/
theorem tick_get_of_ne {j : OscId} (h : j ≠ i) : (tick i s).osc.get j = s.osc.get j := by
  rcases tick_cases i s with ⟨-, e⟩ | ⟨-, -, e⟩ <;> rw [e]
  exact OscFile.get_set_of_ne _ _ h

/-- A tick writes no oscillator parameter (R133). -/
theorem tick_params (j : OscId) :
    ((tick i s).osc.get j).wave = (s.osc.get j).wave ∧ ((tick i s).osc.get j).base = (s.osc.get j).base ∧
    ((tick i s).osc.get j).det = (s.osc.get j).det ∧ ((tick i s).osc.get j).depth = (s.osc.get j).depth := by
  by_cases hj : j = i
  · subst hj
    rcases tick_cases j s with ⟨-, e⟩ | ⟨-, -, e⟩ <;> rw [e] <;> simp
  · simp [tick_get_of_ne i s hj]

end tickFrame

end Sys2Proof.Machine
end

