-- ==== Sys2Proof/Laws/Voice.lean ====
section
/-! SUPPORT. What the shared operations of the voice and the MIDI decoder can do (R153 to R166, R182, R184). -/

namespace Sys2Proof.Machine

/-- Everything `NoteOn` can do: nothing, for a key above 127, or store the key and its frequency (R157). -/
theorem noteOn_cases (key : Int) (s : State) :
    (127 < key ∧ noteOn key s = s) ∨
    (key ≤ 127 ∧ noteOn key s = { s with voice := { s.voice with
      keyActive := true, key := BitVec.ofInt 7 key, tfreq := freqReg (romRead .freq key) } }) := by
  unfold noteOn
  by_cases h : key > 127
  · exact .inl ⟨h, if_pos h⟩
  · exact .inr ⟨not_lt.1 h, if_neg h⟩

/-- Everything `NoteOff` can do: clear the active key, or nothing (R158). -/
theorem noteOff_cases (key : Int) (s : State) :
    (s.voice.keyActive = true ∧ key = (s.voice.key.toNat : Int) ∧
      noteOff key s = { s with voice := { s.voice with keyActive := false, key := 0 } }) ∨
    (¬ (s.voice.keyActive = true ∧ key = (s.voice.key.toNat : Int)) ∧ noteOff key s = s) := by
  unfold noteOff
  by_cases h : s.voice.keyActive = true ∧ key = (s.voice.key.toNat : Int)
  · exact .inl ⟨h.1, h.2, if_pos h⟩
  · exact .inr ⟨h, if_neg h⟩

/-- Everything `Dispatch` can do: a note on, a note off, or nothing (R184). -/
theorem dispatch_cases (b0 b1 b2 : Byte) (s : State) :
    (b0.extractLsb' 4 4 = 0x9 ∧ 0 < b2.toNat ∧ dispatch b0 b1 b2 s = noteOn (b1.toNat : Int) s) ∨
    (((b0.extractLsb' 4 4 = 0x9 ∧ b2.toNat = 0) ∨ b0.extractLsb' 4 4 = 0x8) ∧
      dispatch b0 b1 b2 s = noteOff (b1.toNat : Int) s) ∨
    (b0.extractLsb' 4 4 ≠ 0x9 ∧ b0.extractLsb' 4 4 ≠ 0x8 ∧ dispatch b0 b1 b2 s = s) := by
  unfold dispatch unsignedOperand
  dsimp only
  by_cases h9 : b0.extractLsb' 4 4 = 0x9
  · by_cases h2 : b2.toNat = 0
    · exact .inr (.inl ⟨.inl ⟨h9, h2⟩, by simp [h9, h2]⟩)
    · have h2' : 0 < b2.toNat := Nat.pos_of_ne_zero h2
      exact .inl ⟨h9, h2', by simp [h9, h2']⟩
  · by_cases h8 : b0.extractLsb' 4 4 = 0x8
    · exact .inr (.inl ⟨.inr h8, by simp [h8]⟩)
    · exact .inr (.inr ⟨h9, h8, by
        rw [if_neg fun h => h9 h.1, if_neg fun h => h9 h.1, if_neg h8]⟩)

/-- Notes and dispatch write the key and the target frequency and nothing else (R40). -/
theorem dispatch_frame (b0 b1 b2 : Byte) (s : State) :
    ∃ v, dispatch b0 b1 b2 s = { s with voice := v } ∧
      v.pend = s.voice.pend ∧ v.act = s.voice.act ∧ v.frameCtr = s.voice.frameCtr := by
  rcases dispatch_cases b0 b1 b2 s with ⟨-, -, h⟩ | ⟨-, h⟩ | ⟨-, -, h⟩
  · rcases noteOn_cases (b1.toNat : Int) s with ⟨-, e⟩ | ⟨-, e⟩ <;> rw [h, e] <;>
      exact ⟨_, rfl, rfl, rfl, rfl⟩
  · rcases noteOff_cases (b1.toNat : Int) s with ⟨-, -, e⟩ | ⟨-, e⟩ <;> rw [h, e] <;>
      exact ⟨_, rfl, rfl, rfl, rfl⟩
  · exact ⟨s.voice, h, rfl, rfl, rfl⟩

section tickAll
variable (s : State)

@[simp] theorem tickAll_cfg : (tickAll s).cfg = s.cfg := by simp [tickAll]
@[simp] theorem tickAll_voice : (tickAll s).voice = s.voice := by simp [tickAll]
@[simp] theorem tickAll_midi : (tickAll s).midi = s.midi := by simp [tickAll]
@[simp] theorem tickAll_err : (tickAll s).err = s.err := by simp [tickAll]
@[simp] theorem tickAll_cmdPort : (tickAll s).cmdPort = s.cmdPort := by simp [tickAll]
@[simp] theorem tickAll_out : (tickAll s).out = s.out := by simp [tickAll]

end tickAll

/-- With no key active a frame is silence and touches nothing (R161). -/
theorem sample_silent {s : State} (h : s.voice.keyActive = false) : sample s = (s, s.cfg.outNull) := by
  simp [sample, h]

/-- With a key active a frame is the push, the three ticks and the map (R162 to R164). -/
theorem sample_active {s : State} (h : s.voice.keyActive = true) :
    sample s = (tickAll (push s), mapLevel s.cfg (tickAll (push s)).osc.car.levelVal) := by
  simp [sample, h]

section sample
variable (s : State)

@[simp] theorem sample_cfg : (sample s).1.cfg = s.cfg := by
  unfold sample; split <;> simp
@[simp] theorem sample_voice : (sample s).1.voice = s.voice := by
  unfold sample; split <;> simp
@[simp] theorem sample_midi : (sample s).1.midi = s.midi := by
  unfold sample; split <;> simp
@[simp] theorem sample_err : (sample s).1.err = s.err := by
  unfold sample; split <;> simp
@[simp] theorem sample_cmdPort : (sample s).1.cmdPort = s.cmdPort := by
  unfold sample; split <;> simp
@[simp] theorem sample_out : (sample s).1.out = s.out := by
  unfold sample; split <;> simp

end sample

/-- The map stays inside the output range for every level (R164). -/
theorem mapLevel_range (c : Cfg) (hc : c.outLow ≤ c.outHigh) {l : Int} (h0 : -65536 ≤ l) (h1 : l ≤ 65536) :
    c.outLow ≤ mapLevel c l ∧ mapLevel c l ≤ c.outHigh := by
  have hd : (0 : Int) < 131072 := by norm_num
  have hw : 0 ≤ c.outHigh - c.outLow := by omega
  have hnn := mul_nonneg hw (show 0 ≤ l + 65536 by omega)
  have hle := mul_le_mul_of_nonneg_left (show l + 65536 ≤ 131072 by omega) hw
  have h2 : 0 ≤ fdiv ((c.outHigh - c.outLow) * (l + 65536) + 65536) 131072 := by
    rw [le_fdiv_iff _ _ hd]; omega
  have h3 : fdiv ((c.outHigh - c.outLow) * (l + 65536) + 65536) 131072 <
      (c.outHigh - c.outLow) + 1 := by
    rw [fdiv_lt_iff _ _ hd]; omega
  unfold mapLevel
  omega

/-- A sample of the 32-bit range crosses the audio port unchanged (R83). -/
theorem samplePort_toInt {x : Int} (h0 : -2 ^ 31 ≤ x) (h1 : x < 2 ^ 31) : (samplePort x).toInt = x := by
  simp only [samplePort, BitVec.toInt_ofInt]
  exact Int.bmod_eq_of_le (by omega) (by omega)

/-- Everything `MIDI_BYTE` can do (R182). -/
theorem execMidiByte_cases (b : Byte) (s : State) :
    ((s.midi.state = .awaitingStatus ∨ isStatusByte b = true) ∧ execMidiByte b s = .next (matchStatus b s)) ∨
    (s.midi.state = .awaitingData1 ∧ isStatusByte b = false ∧
      execMidiByte b s = .next { s with midi := { s.midi with data1 := b, state := .awaitingData2 } }) ∨
    (s.midi.state = .awaitingData2 ∧ isStatusByte b = false ∧
      execMidiByte b s = .next (dispatch s.midi.status s.midi.data1 b
        { s with midi := { s.midi with state := .awaitingStatus } })) := by
  unfold execMidiByte
  cases hb : isStatusByte b
  · cases hs : s.midi.state
    · exact .inl ⟨.inl rfl, by simp⟩
    · exact .inr (.inl ⟨rfl, rfl, by simp⟩)
    · exact .inr (.inr ⟨rfl, rfl, by simp⟩)
  · exact .inl ⟨.inr rfl, by simp⟩

end Sys2Proof.Machine
end

