-- ==== Sys2Proof/Laws/Step.lean ====
section
/-! SUPPORT. Everything a step can do, said once (R81, R90, R240). -/

namespace Sys2Proof.Machine

/-- Every step is one of four: nothing presented, a reset, a legal word executed, an illegal word recorded. -/
theorem step_cases (s : State) :
    (s.cmdPort = [] ∧ step s = .next (idle s)) ∨
    (∃ rest, s.cmdPort = .rst :: rest ∧ step s = .next (takeReset rest s)) ∨
    (∃ w rest i, s.cmdPort = .cmd w :: rest ∧ decode w = .ok i ∧ step s = exec i (accept rest s)) ∨
    (∃ w rest e, s.cmdPort = .cmd w :: rest ∧ decode w = .error e ∧
      step s = .next (raise .illegalCommand (accept rest s))) := by
  cases h : s.cmdPort with
  | nil => exact .inl ⟨rfl, by simp [step, h]⟩
  | cons x rest =>
    cases x with
    | rst => exact .inr (.inl ⟨rest, rfl, by simp [step, h]⟩)
    | cmd w =>
      cases hd : decode w with
      | ok i => exact .inr (.inr (.inl ⟨w, rest, i, rfl, hd, by simp [step, h, hd]⟩))
      | error e => exact .inr (.inr (.inr ⟨w, rest, e, rfl, hd, by simp [step, h, hd]⟩))

end Sys2Proof.Machine
end

