-- ==== Sys2Proof/Tests/Slice0.lean ====
section
/-! SUPPORT. The model's own tests. Expected values come from spec/95_test_vectors.md and from the encodings of
spec/30_encoding.md, written out by hand; the theorems named witness_… meet the hypotheses of the statements. -/

namespace Sys2Proof.Tests

open Sys2Proof Sys2Proof.Machine Sys2Proof.Claims

/-- The next state of an outcome. -/
def after (o : Host.Outcome State Fault Refusal) : State :=
  match o with
  | .next t => t
  | .fault _ => State.reset
  | .refused _ => State.reset

/-- The reset state with one word presented. -/
def given (w : CmdWord) : State := { State.reset with cmdPort := [.cmd w] }

/-- The state after one word, from `s`. -/
def afterWord (s : State) (w : CmdWord) : State := after (step { s with cmdPort := [.cmd w] })

/-- A state in the middle of a buffer with a note held: every register away from its reset value. -/
def playing : State :=
  { State.reset with
    osc :=
      { lfo := { wave := .square, base := 163840, det := 0, depth := 0, phase := 0, level := 65536 }
        mod := { wave := .sine, base := 10813440, det := 128, depth := 65536, phase := 7, level := -65536 }
        car := { wave := .triangle, base := 3604480, det := -128, depth := 65536, phase := 120, level := 0 } }
    voice :=
      { keyActive := true, key := 69, tfreq := 3604480
        pend := { wave := .triangle, intensity := 65536, rate := 163840, ratioIdx := 7 }
        act := { wave := .sawtooth, intensity := 32768, rate := 1024, ratioIdx := 2 }
        frameCtr := 3 }
    midi := { state := .awaitingData2, status := 0x9F, data1 := 0x7F } }

/-- The same, at the start of a buffer. -/
def playingFresh : State := { playing with voice := { playing.voice with frameCtr := 0 } }

/-- The carrier of the reset state with another frequency. -/
def carrierAt (base : BitVec 31) : State :=
  { State.reset with osc := { State.reset.osc with car := { Osc.reset with base := base } } }

/-! ## Well-formed words: one ill-formed word for each check of R88, R89 -/

theorem test_wf_z : wellFormedWord 0x9100000000 = false := by decide
theorem test_wf_opcode_7 : wellFormedWord 0x7000000000 = false := by decide
theorem test_wf_opcode_F : wellFormedWord 0xF000000000 = false := by decide
theorem test_wf_osc_three : wellFormedWord 0x1C00000009 = false := by decide
theorem test_wf_osc_unused : wellFormedWord 0x8400000000 = false := by decide
theorem test_wf_arg_none : wellFormedWord 0xE000000001 = false := by decide
theorem test_wf_arg_tick : wellFormedWord 0x5800000001 = false := by decide
theorem test_wf_arg_byte : wellFormedWord 0xC000000100 = false := by decide
theorem test_wf_arg_packet : wellFormedWord 0xD001903C40 = false := by decide
theorem test_wf_legal : wellFormedWord 0x80000303FF = true := by decide

/-! ## Decoding: words written out field by field, `OPC OSC Z ARG` (R84 to R87) -/

theorem test_decode_nop : decode 0b0000000000000000000000000000000000000000 = .ok .nop := by decide
theorem test_decode_waveform :
    decode 0b0001010000000000000000000000000000000001 = .ok (.oscSetWaveform .mod 1) := by decide
theorem test_decode_freq :
    decode 0b0010100000000000001101110000000000000000 = .ok (.oscSetFreq .car 3604480) := by decide
theorem test_decode_detune :
    decode 0b0011011111111111111111111111111110000000 = .error .zNotZero ∧
    decode 0b0011010011111111111111111111111110000000 = .ok (.oscSetDetune .mod (-128)) := by decide
theorem test_decode_moddepth :
    decode 0b0100100000000000000000001000000000000000 = .ok (.oscSetModdepth .car 32768) := by decide
theorem test_decode_tick :
    decode 0b0101000000000000000000000000000000000000 = .ok (.oscTick .lfo) := by decide
theorem test_decode_read :
    decode 0b0110010000000000000000000000000000000000 = .ok (.oscReadLevel .mod) := by decide
theorem test_decode_pot :
    decode 0b1000000000000000000000110000001111111111 = .ok (.setPot 3 1023) := by decide
theorem test_decode_note_on :
    decode 0b1001000000000000000000000000000000111100 = .ok (.noteOn 60) := by decide
theorem test_decode_note_off :
    decode 0b1010000000000000000000000000000001000000 = .ok (.noteOff 64) := by decide
theorem test_decode_render :
    decode 0b1011000000000000000000000000000000000000 = .ok .render := by decide
theorem test_decode_midi_byte :
    decode 0b1100000000000000000000000000000010010000 = .ok (.midiByte 0x90) := by decide
theorem test_decode_midi_packet :
    decode 0b1101000000000000100100000011110001000000 = .ok (.midiPacket 0x90 0x3C 0x40) := by decide
theorem test_decode_status :
    decode 0b1110000000000000000000000000000000000000 = .ok .status := by decide
theorem test_decode_reserved :
    decode 0x7000000000 = .error .reservedOpcode ∧ decode 0xFC00000000 = .error .reservedOpcode := by decide
theorem test_decode_osc : decode 0x5C00000001 = .error .oscField ∧ decode 0x0400000000 = .error .oscField := by decide
theorem test_decode_arg : decode 0xB000000001 = .error .argNotZero := by decide
theorem test_table_word : decodeTableWord 40 0x900000003C = some (.noteOn 60) := by decide
theorem test_fetch_word :
    (after (step (State.reset.withFetchWord 40 0x900000003C))).voice.key = 60 := by decide

/-! ## The assembler (R92 to R94) -/

/-- The commands of a line of text, in the default configuration. -/
def asm (t : String) : Option (List Instr) := assembleLine Cfg.default t.toList

theorem test_asm_literals :
    asm "OSC_SET_FREQ CAR, HZ(440) ; tune" = some [.oscSetFreq .car 3604480] ∧
    asm "OSC_SET_FREQ 2, HZ(-5.0)" = some [.oscSetFreq .car (-40960)] ∧
    asm "OSC_SET_MODDEPTH CAR, Q16(0.5)" = some [.oscSetModdepth .car 32768] ∧
    asm "OSC_SET_DETUNE CAR, SEMI(1.0)" = some [.oscSetDetune .car 128] := by decide
theorem test_asm_names :
    asm "OSC_SET_WAVEFORM MOD, SQUARE" = some [.oscSetWaveform .mod 1] ∧
    asm "OSC_TICK LFO" = some [.oscTick .lfo] ∧ asm "OSC_READ_LEVEL CAR" = some [.oscReadLevel .car] ∧
    asm "SET_POT RATIO, 1023" = some [.setPot 3 1023] := by decide
theorem test_asm_plain :
    asm "NOP" = some [.nop] ∧ asm "RENDER" = some [.render] ∧ asm "STATUS" = some [.status] ∧
    asm "NOTE_ON 60" = some [.noteOn 60] ∧ asm "NOTE_OFF 60" = some [.noteOff 60] ∧
    asm "OSC_SET_DETUNE MOD, -128" = some [.oscSetDetune .mod (-128)] ∧
    asm "MIDI_PACKET 0x90, 0x3C, 0x40" = some [.midiPacket 0x90 0x3C 0x40] := by decide
theorem test_asm_pseudo :
    asm "MIDI_MSG 0x90, 0x3C, 0x40" = some [.midiByte 0x90, .midiByte 0x3C, .midiByte 0x40] ∧
    asm "RENDER_BUFFER" = some [.render, .render, .render, .render] ∧
    asm "TICK_N CAR, 2" = some [.oscTick .car, .oscTick .car] := by decide
theorem test_asm_refuses :
    asm "MIDI_BYTE 256" = none ∧ asm "OSC_TICK 3" = none ∧ asm "RENDER 1" = none ∧ asm "HALT" = none := by
  decide

/-! ## One step each, from the vectors of 95_test_vectors.md -/

theorem test_waveform : (afterWord State.reset 0x1000000003).osc.lfo.wave = .triangle := by decide
theorem test_waveform_rejects :
    (afterWord State.reset 0x1800000004).err = { illegal := false, contract := true } := by decide
theorem test_freq : (afterWord State.reset 0x247FFFFFFF).osc.mod.base = 2147483647 := by decide
theorem test_freq_ignores :
    (afterWord (carrierAt 3604480) 0x28FFFF6000).osc.car.base = 3604480 ∧
    (afterWord (carrierAt 3604480) 0x2800000000).err.contract = false := by decide
theorem test_detune : (afterWord State.reset 0x38FFFFFF80).osc.car.det = -128 := by decide
theorem test_detune_rejects :
    (afterWord State.reset 0x3800000600).err.contract = true ∧
    (afterWord State.reset 0x3800000600).osc.car.det = 0 := by decide
theorem test_moddepth : (afterWord State.reset 0x4800010000).osc.car.depth = 65536 := by decide
theorem test_moddepth_rejects : (afterWord State.reset 0x4400010001).err.contract = true := by decide
theorem test_tick :
    ((afterWord (carrierAt 39321600) 0x5800000000).osc.car.phase,
      (afterWord (carrierAt 39321600) 0x5800000000).osc.car.level) = (1, 38521) := by decide
theorem test_tick_high : afterWord (carrierAt 786432001) 0x5800000000 = carrierAt 786432001 := by
  decide
theorem test_read_level :
    (after (exec (.oscReadLevel .car)
      (State.reset.setOsc .car { Osc.reset with level := -38521 }))).out = .rsp 0xFFFF6987 := by decide
theorem test_pot_rate : (afterWord State.reset 0x80000201FF).voice.pend.rate = 82352 := by decide
theorem test_pot_intensity : (afterWord State.reset 0x80000103FE).voice.pend.intensity = 65471 := by
  decide
theorem test_note_on :
    (afterWord State.reset 0x9000000045).voice.tfreq = 3604480 ∧
    afterWord State.reset 0x9000000080 = State.reset := by decide
theorem test_note_off :
    (afterWord (afterWord State.reset 0x9000000040) 0xA00000003C).voice.key = 64 ∧
    (afterWord (afterWord State.reset 0x9000000040) 0xA000000040).voice.keyActive = false := by decide
theorem test_render_first_frame :
    (afterWord (afterWord State.reset 0x900000003C) 0xB000000000).out = .aud 571 571 false := by decide
theorem test_render_silent : (afterWord State.reset 0xB000000000).out = .aud 0 0 false := by decide
theorem test_midi_byte :
    (afterWord State.reset 0xC00000009A).midi =
      { state := .awaitingData1, status := 0x9A, data1 := 0 } := by decide
theorem test_midi_byte_completes :
    (after (exec (.midiByte 0x01) playing)).voice.tfreq = 102759265 := by decide
theorem test_midi_packet :
    (afterWord State.reset 0xD0009F7FFF).voice.key = 127 ∧
    (afterWord State.reset 0xD0009F7FFF).midi = State.reset.midi := by decide
theorem test_midi_packet_velocity_zero :
    (afterWord (afterWord State.reset 0xD000903C40) 0xD000903C00).voice.keyActive = false := by decide
theorem test_status :
    (after (exec .status { playing with
      voice := { playing.voice with key := 127 }, err := ⟨true, true⟩ })).out = .rsp 0x000017FB := by
  decide
theorem test_illegal :
    (afterWord State.reset 0x1C00000009).err = { illegal := true, contract := false } := by decide
theorem test_reset_event :
    after (step { playing with cmdPort := [.rst] }) = State.reset := by decide

/-! ## Pure functions, from sections 2, 4 and 6 of the vectors -/

theorem test_wave_sawtooth : (List.range 7).map (fun p => waveLookup .sawtooth (p : Nat) 7) =
    [-65536, -46812, -28087, -9363, 9362, 28086, 46811] := by decide
theorem test_wave_triangle : (List.range 7).map (fun p => waveLookup .triangle (p : Nat) 7) =
    [-65536, -28087, 9362, 46811, 46812, 9363, -28086] := by decide
theorem test_mod_term_floor : modTerm (-38521) 65536 = -96303 ∧ modTerm (-1) 1 = -1 := by decide
theorem test_period_ties : period Cfg.default 157286400 = 3 ∧ period Cfg.default 786432001 = 0 := by decide
theorem test_map_level :
    mapLevel Cfg.default (-56756) = -28378 ∧ mapLevel Cfg.default 32768 = 16383 ∧
    mapLevel Cfg.default 1144 = 571 := by decide

/-! ## Witnesses: states and operands that meet the hypotheses of the statements -/

theorem witness_cfg_valid : Cfg.default.Valid := by constructor <;> decide
/-- A configuration with one frame a buffer and every level the same (R9, R10 at their ends). -/
theorem witness_cfg_edges :
    Cfg.Valid { Cfg.default with sampleRate := 262143, outLow := 5, outNull := 5, outHigh := 5, bufFrames := 1 } := by
  constructor <;> decide

theorem witness_playing_legal : StateLegal playing := by
  refine ⟨witness_cfg_valid, fun i => ?_, ⟨by decide, fun _ => by decide, ?_, ?_, by decide⟩, ?_⟩
  · cases i <;> constructor <;> decide
  · constructor <;> decide
  · constructor <;> decide
  · constructor <;> decide

theorem witness_playing_fresh_legal : StateLegal playingFresh := by
  have h := witness_playing_legal
  exact ⟨h.cfg, h.osc, ⟨h.voice.key_of_inactive, h.voice.tfreq_of_active, h.voice.pend, h.voice.act, by decide⟩,
    h.midi⟩

/-- StepRunsDecodedCommand, StepTakesOldestInput, NothingWritesTheConfiguration, PortsAnswerOnlyTheirCommands. -/
theorem witness_legal_step :
    (given 0xE000000000).cmdPort = .cmd 0xE000000000 :: [] ∧ decode 0xE000000000 = .ok .status ∧
    ∃ t, step (given 0xE000000000) = .next t := ⟨rfl, by decide, _, rfl⟩
/-- IllegalWordSetsOnlyItsFlag, and the illegal case of FlagsRecordExactlyTheConditions. -/
theorem witness_illegal_step :
    (given 0x7000000000).cmdPort = .cmd 0x7000000000 :: [] ∧ decode 0x7000000000 = .error .reservedOpcode ∧
    ∃ t, step (given 0x7000000000) = .next t := ⟨rfl, by decide, _, rfl⟩
/-- EmptyPortWaits. -/
theorem witness_empty_port : State.reset.cmdPort = [] := rfl
/-- ResetGivesEveryFieldItsValue, from a state with nothing at its reset value. -/
theorem witness_reset_event :
    playing.cfg.Valid ∧ State.cmdPort { playing with cmdPort := [.rst] } = .rst :: [] := ⟨witness_cfg_valid, rfl⟩
/-- StepKeepsLegal: a step that renders a frame. -/
theorem witness_step_keeps :
    StateLegal { playing with cmdPort := [.cmd 0xB000000000] } ∧
    ∃ t, step { playing with cmdPort := [.cmd 0xB000000000] } = .next t :=
  ⟨⟨witness_playing_legal.cfg, witness_playing_legal.osc, witness_playing_legal.voice, witness_playing_legal.midi⟩,
    _, rfl⟩
/-- FlagsRecordExactlyTheConditions: the three setters, one past each end of their domains. -/
theorem witness_contract_violations :
    decode 0x1800000004 = .ok (.oscSetWaveform .car 4) ∧ 3 < (4 : BitVec 32).toNat ∧
    decode 0x3800000081 = .ok (.oscSetDetune .car 129) ∧ 128 < (129 : BitVec 32).toInt ∧
    decode 0x38FFFFFF7F = .ok (.oscSetDetune .car (-129)) ∧ (-129 : BitVec 32).toInt < -128 ∧
    decode 0x4400010001 = .ok (.oscSetModdepth .mod 65537) ∧ 65536 < (65537 : BitVec 32).toNat := by decide
/-- FlagsAreStickyOverRuns. -/
theorem witness_sticky :
    HostInput.rst ∉ ([.cmd 0xE000000000, .cmd 0x0000000000] : List HostInput).take 2 ∧
    (∃ t, runSteps 2 { State.reset with
      err := ⟨true, true⟩, cmdPort := [.cmd 0xE000000000, .cmd 0x0000000000] } = .next t) :=
  ⟨by decide, _, rfl⟩
/-- EncodeOfDecode and DecodingInOrder: each check and each format at the ends of its ranges. -/
theorem witness_decoding_order :
    BitVec.extractLsb' 32 2 (0x7100000001 : CmdWord) ≠ 0 ∧
    BitVec.extractLsb' 36 4 (0xF000000000 : CmdWord) = 15 ∧
    BitVec.extractLsb' 34 2 (0x1C00000009 : CmdWord) = 3 ∧
    BitVec.extractLsb' 34 2 (0x8400000000 : CmdWord) ≠ 0 ∧
    BitVec.extractLsb' 0 32 (0x5800000001 : CmdWord) ≠ 0 ∧
    BitVec.extractLsb' 34 2 (0x5800000001 : CmdWord) = OscId.car.select ∧
    BitVec.extractLsb' 0 32 (0xE000000001 : CmdWord) ≠ 0 ∧
    (BitVec.extractLsb' 0 32 (0xC000000100 : CmdWord)).toNat = 256 ∧
    (BitVec.extractLsb' 0 32 (0xC0000000FF : CmdWord)).toNat < 256 ∧
    (BitVec.extractLsb' 0 32 (0xD001000000 : CmdWord)).toNat = 16777216 ∧
    (BitVec.extractLsb' 0 32 (0xD000FFFFFF : CmdWord)).toNat < 16777216 ∧
    decode 0xD000FFFFFF = .ok (.midiPacket 0xFF 0xFF 0xFF) := by decide
/-- The four setters: both sides of each limit. -/
theorem witness_setter_operands :
    (3 : BitVec 32).toNat ≤ 3 ∧ 3 < (4 : BitVec 32).toNat ∧ 0 < (1 : BitVec 32).toInt ∧
    (0 : BitVec 32).toInt ≤ 0 ∧ (-128 : BitVec 32).toInt = -128 ∧ (128 : BitVec 32).toInt ≤ 128 ∧
    (-129 : BitVec 32).toInt < -128 ∧ 128 < (129 : BitVec 32).toInt ∧
    (65536 : BitVec 32).toNat ≤ 65536 ∧ 65536 < (65537 : BitVec 32).toNat := by decide
/-- EffectiveFrequency: the ends of `det`, and the cases `det = 0` and `base = 0`. -/
theorem witness_detune_range :
    playing.osc.car.det.toInt = -128 ∧ playing.osc.mod.det.toInt = 128 ∧ playing.osc.lfo.det = 0 ∧
    Osc.reset.base = 0 := by decide
/-- InstantaneousFrequency: with and without a modulator, and a depth of 0. -/
theorem witness_routes :
    StateLegal playing ∧ routeOf playing.cfg .lfo = none ∧ routeOf playing.cfg .mod = some .lfo ∧
    (playing.osc.get .lfo).depth = 0 ∧ (playing.osc.get .car).level = 0 := ⟨witness_playing_legal, by decide⟩
/-- PeriodOfFrequency: the frequencies where the period turns from 2 to 1 and from 1 to 0. -/
theorem witness_period_edges :
    Cfg.default.Valid ∧ (0 : Int) < 1 ∧ (2 : Int) * 393216000 < 3 * 262144001 ∧
    (786432000 : Int) ≤ 2 * 393216000 ∧ (2 : Int) * 393216000 < 786432001 := ⟨witness_cfg_valid, by decide⟩
/-- DegenerateTickHolds and the two holds of TickAdvances. -/
theorem witness_holds :
    instFreq State.reset .car ≤ 0 ∧ 0 < instFreq (carrierAt 786432001) .car ∧
    period Cfg.default (instFreq (carrierAt 786432001) .car) = 0 := by decide
/-- TickAdvances: a tick that wraps and a tick that does not. -/
theorem witness_advances :
    0 < instFreq playing .car ∧ period playing.cfg (instFreq playing .car) ≤ (playing.osc.get .car).phase.toNat + 1 ∧
    period playing.cfg (instFreq playing .car) ≠ 0 ∧
    period playing.cfg (instFreq playing .mod) > (playing.osc.get .mod).phase.toNat + 1 ∧
    0 < instFreq (State.reset.setOsc .car { Osc.reset with base := 39321600, phase := 9 }) .car ∧
    period Cfg.default (instFreq
      (State.reset.setOsc .car { Osc.reset with base := 39321600, phase := 9 }) .car) = 9 + 1 := by decide
/-- CarrierSeesNewModulatorLevel. -/
theorem witness_carrier :
    StateLegal playing ∧ routeOf playing.cfg .car = some .mod ∧
    (∃ a, exec (.oscTick .mod) playing = .next a) ∧
    0 < instFreq (after (exec (.oscTick .mod) playing)) .car ∧
    period playing.cfg (instFreq (after (exec (.oscTick .mod) playing)) .car) ≠ 0 :=
  ⟨witness_playing_legal, by decide, ⟨_, rfl⟩, by decide⟩
/-- PhaseAfterManyTicks: the last phase of a period of 10. -/
theorem witness_many_ticks :
    Cfg.default.Valid ∧ routeOf Cfg.default .car ≠ some .car ∧
    0 < instFreq (State.reset.setOsc .car { Osc.reset with base := 39321600, phase := 9 }) .car ∧
    1 ≤ period Cfg.default (instFreq
      (State.reset.setOsc .car { Osc.reset with base := 39321600, phase := 9 }) .car) ∧
    ((9 : BitVec 32).toNat : Int) < period Cfg.default (instFreq
      (State.reset.setOsc .car { Osc.reset with base := 39321600, phase := 9 }) .car) :=
  ⟨witness_cfg_valid, by decide⟩
/-- WaveLookupBounds, WaveShapes, TablesAreReadInRange: a period of one, and both halves of a longer one. -/
theorem witness_phases :
    (1 : Int) ≤ 1 ∧ (0 : Int) < 1 ∧ (2 : Int) * 2 < 5 ∧ (5 : Int) ≤ 2 * 3 ∧ (4 : Int) < 5 := by decide
/-- LiteralsRoundToNearest. -/
theorem witness_literal : 0 < (DecimalLit.mk (-50) 10).den := by decide
/-- SetPotWritesOnePendingControl: the four channels, the last legal raw value, and one past each limit. -/
theorem witness_pot_operands :
    State.reset.cfg.Valid ∧ (0 : BitVec 16).toNat = 0 ∧ (3 : BitVec 16).toNat ≤ 3 ∧
    3 < (4 : BitVec 16).toNat ∧ (1023 : BitVec 16).toNat ≤ 1023 ∧ 1023 < (1024 : BitVec 16).toNat :=
  ⟨witness_cfg_valid, by decide⟩
/-- PotRescales: the ends of the raw range. -/
theorem witness_raw : (0 : Int) ≤ 0 ∧ (0 : Int) ≤ 1023 ∧ (1023 : Int) ≤ 1023 ∧ Cfg.default.Valid :=
  ⟨by decide, by decide, by decide, witness_cfg_valid⟩
/-- NoteOnSetsKeyAndFrequency, NoteOffClearsOnlyTheActiveKey. -/
theorem witness_keys :
    (127 : BitVec 32).toNat ≤ 127 ∧ 127 < (128 : BitVec 32).toNat ∧ playing.voice.keyActive = true ∧
    (69 : BitVec 32).toNat = playing.voice.key.toNat ∧ (60 : BitVec 32).toNat ≠ playing.voice.key.toNat ∧
    State.reset.voice.keyActive = false := by decide
/-- SilentRenderEmitsNull: at the start of a buffer; SilenceDoesNotDrift for two frames. -/
theorem witness_silence :
    State.reset.cfg.Valid ∧ State.reset.voice.keyActive = false ∧ State.reset.voice.frameCtr = 0 ∧
    State.cmdPort { State.reset with cmdPort := [.cmd 0xB000000000, .cmd 0xB000000000] } =
      List.replicate 2 (.cmd 0xB000000000) := ⟨witness_cfg_valid, by decide, by decide, rfl⟩
/-- ActiveRenderPushesTicksAndMaps: in the frame that completes a buffer and in the one that starts it. -/
theorem witness_active :
    StateLegal playing ∧ playing.voice.keyActive = true ∧ playing.voice.frameCtr.toNat + 1 = playing.cfg.bufFrames ∧
    StateLegal playingFresh ∧ playingFresh.voice.keyActive = true ∧ playingFresh.voice.frameCtr = 0 :=
  ⟨witness_playing_legal, by decide, by decide, witness_playing_fresh_legal, by decide, by decide⟩
/-- ControlsAreLatchedAtBufferStart, CommandsWriteOnlyTheirRow: each command answers a next state. -/
theorem witness_latch :
    (∃ t, exec .render playingFresh = .next t) ∧ playingFresh.voice.frameCtr = 0 ∧
    (∃ t, exec .render playing = .next t) ∧ playing.voice.frameCtr ≠ 0 ∧
    (∃ t, exec (.setPot 0 0) playing = .next t) ∧ playingFresh.voice.pend ≠ playingFresh.voice.act :=
  ⟨⟨_, rfl⟩, by decide, ⟨_, rfl⟩, by decide, ⟨_, rfl⟩, by decide⟩
/-- OutputMap: the ends of LEVEL format. -/
theorem witness_levels : Cfg.default.Valid ∧ (-65536 : Int) ≤ -65536 ∧ (65536 : Int) ≤ 65536 :=
  ⟨witness_cfg_valid, by decide⟩
/-- RenderCountsFrames with one frame a buffer, FrameCounterAfterManyRenders, RenderBufferIsOneBuffer. -/
theorem witness_frames :
    Cfg.Valid { Cfg.default with bufFrames := 1 } ∧ (0 : BitVec 32).toNat < 1 ∧
    playing.cfg.Valid ∧ playing.voice.frameCtr.toNat < playing.cfg.bufFrames ∧
    State.reset.voice.frameCtr = 0 ∧
    (renderBuffer Cfg.default).map (fun i => HostInput.cmd (encode i)) =
      List.replicate 4 (.cmd 0xB000000000) ∧
    (∃ t, exec (.noteOn 60) playing = .next t) :=
  ⟨by constructor <;> decide, by decide, witness_cfg_valid, by decide, by decide, by decide, _, rfl⟩
/-- MidiByteTransitions: the byte classes at their ends, in each decoder state. -/
theorem witness_midi_bytes :
    (0x7F : Byte).toNat < 0x80 ∧ 0x80 ≤ (0x80 : Byte).toNat ∧ (0x9F : Byte).toNat < 0xA0 ∧
    0xA0 ≤ (0xA0 : Byte).toNat ∧ State.reset.midi.state = .awaitingStatus ∧
    (afterWord State.reset 0xC000000090).midi.state = .awaitingData1 ∧
    playing.midi.state = .awaitingData2 := by decide
/-- MidiPacketActsAsNote: the four branches. -/
theorem witness_packets :
    (0x9F : Byte).toNat / 16 = 9 ∧ 0 < (0xFF : Byte).toNat ∧ (0 : Byte).toNat = 0 ∧
    (0x8A : Byte).toNat / 16 = 8 ∧ (0xB0 : Byte).toNat / 16 ≠ 8 ∧ (0xB0 : Byte).toNat / 16 ≠ 9 := by decide
/-- MidiDecodeRoundTrip, MidiResync. -/
theorem witness_midi_streams :
    State.reset.midi.state = .awaitingStatus ∧
    (State.cmdPort { State.reset with
      cmdPort := [.cmd 0xC000000090, .cmd 0xC00000003C, .cmd 0xC000000040] } =
        .cmd 0xC000000090 :: .cmd 0xC00000003C :: .cmd 0xC000000040 :: []) ∧
    (State.cmdPort { State.reset with
      cmdPort := [.cmd 0xC000000090, .cmd 0xC00000003C, .cmd 0xC000000091, .cmd 0xC000000040,
        .cmd 0xC000000050] } =
        .cmd 0xC000000090 :: .cmd 0xC00000003C :: .cmd 0xC000000091 :: .cmd 0xC000000040 ::
          .cmd 0xC000000050 :: []) := ⟨rfl, rfl, rfl⟩
/-- PendingControlsWaitForTheLatch: a render in the middle of a buffer with other pending controls. -/
theorem witness_pending :
    ¬ (Instr.render = .render ∧ playing.voice.frameCtr = 0) ∧ (∃ t, exec .render playing = .next t) ∧
    withPend playing playing.voice.act ≠ playing := ⟨by decide, ⟨_, rfl⟩, by decide⟩
/-- StaleFrequencyIsNeverUsed: a render after a note off. -/
theorem witness_stale :
    (afterWord playing 0xA000000045).voice.keyActive = false ∧
    (∃ t, exec .render (afterWord playing 0xA000000045) = .next t) ∧
    (afterWord playing 0xA000000045).voice.tfreq ≠ 0 := ⟨by decide, ⟨_, rfl⟩, by decide⟩

end Sys2Proof.Tests
end

section
/-! Everything the oscillator setters can do, and what no command writes: the configuration and the command port. -/

namespace Sys2Proof.Machine

/-- Everything `OSC_SET_WAVEFORM` can do (R124). -/
theorem execOscSetWaveform_cases (i : OscId) (w : BitVec 32) (s : State) :
    (waveInDomain w ∧ execOscSetWaveform i w s =
      .next (s.setOsc i { s.osc.get i with wave := waveformOfCode (w.extractLsb' 0 2) })) ∨
    (¬ waveInDomain w ∧ execOscSetWaveform i w s = .next (raise .contractViolation s)) := by
  by_cases h : waveInDomain w
  · exact .inl ⟨h, if_pos h⟩
  · exact .inr ⟨h, if_neg h⟩

/-- Everything `OSC_SET_FREQ` can do (R125). -/
theorem execOscSetFreq_cases (i : OscId) (hz : BitVec 32) (s : State) :
    (0 < signedOperand hz ∧ execOscSetFreq i hz s =
      .next (s.setOsc i { s.osc.get i with base := freqReg (signedOperand hz) })) ∨
    (signedOperand hz ≤ 0 ∧ execOscSetFreq i hz s = .next s) := by
  by_cases h : 0 < signedOperand hz
  · exact .inl ⟨h, if_pos h⟩
  · exact .inr ⟨not_lt.1 h, if_neg h⟩

/-- Everything `OSC_SET_DETUNE` can do (R126). -/
theorem execOscSetDetune_cases (i : OscId) (d : BitVec 32) (s : State) :
    (detuneInDomain d ∧ execOscSetDetune i d s =
      .next (s.setOsc i { s.osc.get i with det := d.extractLsb' 0 9 })) ∨
    (¬ detuneInDomain d ∧ execOscSetDetune i d s = .next (raise .contractViolation s)) := by
  by_cases h : detuneInDomain d
  · exact .inl ⟨h, if_pos h⟩
  · exact .inr ⟨h, if_neg h⟩

/-- Everything `OSC_SET_MODDEPTH` can do (R127). -/
theorem execOscSetModdepth_cases (i : OscId) (x : BitVec 32) (s : State) :
    (depthInDomain x ∧ execOscSetModdepth i x s =
      .next (s.setOsc i { s.osc.get i with depth := x.extractLsb' 0 17 })) ∨
    (¬ depthInDomain x ∧ execOscSetModdepth i x s = .next (raise .contractViolation s)) := by
  by_cases h : depthInDomain x
  · exact .inl ⟨h, if_pos h⟩
  · exact .inr ⟨h, if_neg h⟩

section noteFrame
variable (key : Int) (b b0 b1 b2 : Byte) (s : State)

@[simp] theorem noteOn_cfg : (noteOn key s).cfg = s.cfg := by
  rcases noteOn_cases key s with ⟨-, h⟩ | ⟨-, h⟩ <;> rw [h]
@[simp] theorem noteOn_cmdPort : (noteOn key s).cmdPort = s.cmdPort := by
  rcases noteOn_cases key s with ⟨-, h⟩ | ⟨-, h⟩ <;> rw [h]
@[simp] theorem noteOff_cfg : (noteOff key s).cfg = s.cfg := by
  rcases noteOff_cases key s with ⟨-, -, h⟩ | ⟨-, h⟩ <;> rw [h]
@[simp] theorem noteOff_cmdPort : (noteOff key s).cmdPort = s.cmdPort := by
  rcases noteOff_cases key s with ⟨-, -, h⟩ | ⟨-, h⟩ <;> rw [h]
@[simp] theorem dispatch_cfg : (dispatch b0 b1 b2 s).cfg = s.cfg := by
  obtain ⟨v, h, -⟩ := dispatch_frame b0 b1 b2 s
  rw [h]
@[simp] theorem dispatch_cmdPort : (dispatch b0 b1 b2 s).cmdPort = s.cmdPort := by
  obtain ⟨v, h, -⟩ := dispatch_frame b0 b1 b2 s
  rw [h]
@[simp] theorem matchStatus_cfg : (matchStatus b s).cfg = s.cfg := by
  unfold matchStatus; split <;> rfl
@[simp] theorem matchStatus_cmdPort : (matchStatus b s).cmdPort = s.cmdPort := by
  unfold matchStatus; split <;> rfl

end noteFrame

/-- Every command answers with a next state, and writes neither the configuration nor the command port (R40, R220). -/
theorem exec_next_frame (i : Instr) (s : State) :
    ∃ t, exec i s = .next t ∧ t.cfg = s.cfg ∧ t.cmdPort = s.cmdPort := by
  cases i with
  | nop => exact ⟨_, rfl, rfl, rfl⟩
  | oscSetWaveform osc w =>
    rcases execOscSetWaveform_cases osc w s with ⟨-, h⟩ | ⟨-, h⟩ <;> exact ⟨_, h, rfl, rfl⟩
  | oscSetFreq osc hz =>
    rcases execOscSetFreq_cases osc hz s with ⟨-, h⟩ | ⟨-, h⟩ <;> exact ⟨_, h, rfl, rfl⟩
  | oscSetDetune osc d =>
    rcases execOscSetDetune_cases osc d s with ⟨-, h⟩ | ⟨-, h⟩ <;> exact ⟨_, h, rfl, rfl⟩
  | oscSetModdepth osc x =>
    rcases execOscSetModdepth_cases osc x s with ⟨-, h⟩ | ⟨-, h⟩ <;> exact ⟨_, h, rfl, rfl⟩
  | oscTick osc => exact ⟨_, rfl, tick_cfg osc s, tick_cmdPort osc s⟩
  | oscReadLevel osc => exact ⟨_, rfl, rfl, rfl⟩
  | setPot paramId raw => exact ⟨_, rfl, rfl, rfl⟩
  | noteOn key => exact ⟨_, rfl, noteOn_cfg _ s, noteOn_cmdPort _ s⟩
  | noteOff key => exact ⟨_, rfl, noteOff_cfg _ s, noteOff_cmdPort _ s⟩
  | render => exact ⟨_, rfl, by simp, by simp⟩
  | midiByte b =>
    rcases execMidiByte_cases b s with ⟨-, h⟩ | ⟨-, -, h⟩ | ⟨-, -, h⟩
    · exact ⟨_, h, matchStatus_cfg b s, matchStatus_cmdPort b s⟩
    · exact ⟨_, h, rfl, rfl⟩
    · exact ⟨_, h, dispatch_cfg .., dispatch_cmdPort ..⟩
  | midiPacket b0 b1 b2 => exact ⟨_, rfl, dispatch_cfg b0 b1 b2 s, dispatch_cmdPort b0 b1 b2 s⟩
  | status => exact ⟨_, rfl, rfl, rfl⟩

/-- Every step answers with a next state and keeps the configuration (R220, R240). -/
theorem step_next_cfg (s : State) : ∃ t, step s = .next t ∧ t.cfg = s.cfg := by
  rcases step_cases s with ⟨-, h⟩ | ⟨rest, -, h⟩ | ⟨w, rest, i, -, -, h⟩ | ⟨w, rest, e, -, -, h⟩
  · exact ⟨_, h, idle_cfg s⟩
  · exact ⟨_, h, takeReset_cfg rest s⟩
  · obtain ⟨t, ht, hcfg, -⟩ := exec_next_frame i (accept rest s)
    exact ⟨t, h.trans ht, hcfg⟩
  · exact ⟨_, h, raise_cfg _ _⟩

end Sys2Proof.Machine
end

section
/-! The configuration is fixed for a whole run (00_scope.md section 4, R240). -/

namespace Sys2Proof.Machine

/-- Settles O15: every command keeps `cfg` (`exec_next_frame`), and so do reset, waiting and an illegal word. -/
theorem nothingWritesTheConfiguration : Obligations.NothingWritesTheConfiguration := by
  unfold Obligations.NothingWritesTheConfiguration
  intro s t hst
  obtain ⟨u, hsu, hcfg⟩ := step_next_cfg s
  obtain rfl : u = t := Host.Outcome.next.inj (hsu.symm.trans hst)
  exact hcfg

end Sys2Proof.Machine
end

section
/-! The invariant `StateLegal`: each shared operation keeps it, so every command and every step does. -/

namespace Sys2Proof.Machine

/-- A number inside the unsigned range of a register is stored whole. -/
theorem ofInt_toNat_of_range {n : Nat} {x : Int} (h0 : 0 ≤ x) (h1 : x < ((2 ^ n : Nat) : Int)) :
    ((BitVec.ofInt n x).toNat : Int) = x := by
  rw [BitVec.toNat_ofInt, Int.emod_eq_of_lt h0 h1, Int.toNat_of_nonneg h0]

/-- A detune code inside its domain keeps its value in the 9 bits of `det` (R25, R126). -/
theorem detuneCode_toInt {d : BitVec 32} (h0 : -128 ≤ d.toInt) (h1 : d.toInt ≤ 128) :
    (d.extractLsb' 0 9).toInt = d.toInt := by
  have h : d.extractLsb' 0 9 = BitVec.ofInt 9 d.toInt := by
    rw [← BitVec.setWidth_eq_extractLsb' (by norm_num)]
    apply BitVec.eq_of_toInt_eq
    rw [BitVec.toInt_setWidth, BitVec.toInt_ofInt, BitVec.toInt_eq_toNat_bmod,
      Int.bmod_bmod_of_dvd (by norm_num)]
  rw [h, BitVec.toInt_ofInt]
  exact Int.bmod_eq_of_le (by omega) (by omega)

/-- A depth inside its domain keeps its value in the 17 bits of `depth` (R26, R127). -/
theorem depthCode_toNat {x : BitVec 32} (h : x.toNat ≤ 65536) : (x.extractLsb' 0 17).toNat = x.toNat := by
  rw [BitVec.extractLsb'_toNat, Nat.shiftRight_zero]
  exact Nat.mod_eq_of_lt (by omega)

/-- The intensity rescale stays in DEPTH format (R155). -/
theorem potIntensity_range {raw : Int} (h0 : 0 ≤ raw) (h1 : raw ≤ 1023) :
    0 ≤ potIntensity raw ∧ potIntensity raw ≤ 65536 := by
  have hd : (0 : Int) < 1023 := by norm_num
  have h : potIntensity raw < 65537 := (fdiv_lt_iff _ _ hd).2 (by omega)
  exact ⟨(le_fdiv_iff _ _ hd).2 (by omega), by omega⟩

/-- The rate rescale stays between its two ends (R155). -/
theorem potRate_range {c : Cfg} (hc : c.rateLo ≤ c.rateHi) {raw : Int} (h0 : 0 ≤ raw) (h1 : raw ≤ 1023) :
    (c.rateLo : Int) ≤ potRate c raw ∧ potRate c raw ≤ (c.rateHi : Int) := by
  have hd : (0 : Int) < 1023 := by norm_num
  have hw : 0 ≤ (c.rateHi : Int) - (c.rateLo : Int) := by omega
  have hle := mul_le_mul_of_nonneg_right h1 hw
  have hq0 : 0 ≤ fdiv (raw * ((c.rateHi : Int) - (c.rateLo : Int))) 1023 := by
    rw [le_fdiv_iff _ _ hd, zero_mul]
    exact mul_nonneg h0 hw
  have hq1 : fdiv (raw * ((c.rateHi : Int) - (c.rateLo : Int))) 1023 <
      (c.rateHi : Int) - (c.rateLo : Int) + 1 := by
    rw [fdiv_lt_iff _ _ hd]
    omega
  unfold potRate
  omega

/-- `SET_POT` keeps the pending controls legal, whatever its channel and its raw value (R33, R153 to R155). -/
theorem ControlsLegal.potWrite {c : Cfg} (hc : c.Valid) {p : Controls} (hp : ControlsLegal c p)
    (paramId raw : BitVec 16) : ControlsLegal c (potWrite c paramId raw p) := by
  have hhi := hc.rateHi_lt
  unfold Machine.potWrite unsignedOperand
  split
  · exact hp
  · have hraw : (raw.toNat : Int) ≤ 1023 := by omega
    split
    · exact ⟨hp.intensity_le, hp.rate_ge, hp.rate_le⟩
    · obtain ⟨h0, h1⟩ := potIntensity_range (Int.natCast_nonneg raw.toNat) hraw
      have hreg : ((depthReg (potIntensity raw.toNat)).toNat : Int) = potIntensity raw.toNat :=
        ofInt_toNat_of_range h0 (by omega)
      exact ⟨by dsimp only; omega, hp.rate_ge, hp.rate_le⟩
    · obtain ⟨h0, h1⟩ := potRate_range hc.rateLo_le_hi (Int.natCast_nonneg raw.toNat) hraw
      have hreg : ((freqReg (potRate c raw.toNat)).toNat : Int) = potRate c raw.toNat :=
        ofInt_toNat_of_range (by omega) (by omega)
      exact ⟨hp.intensity_le, by dsimp only; omega, by dsimp only; omega⟩
    · exact ⟨hp.intensity_le, hp.rate_ge, hp.rate_le⟩
    · exact hp

/-- An oscillator after reset is legal (R41). -/
theorem OscLegal.reset : OscLegal Osc.reset := by constructor <;> decide

/-- An advance by a period that fits the phase register keeps an oscillator legal (R28, R129). -/
theorem OscLegal.advance {o : Osc} (ho : OscLegal o) {P : Int} (h1 : 1 ≤ P) (h2 : P < 2 ^ 32) :
    OscLegal (advance o P) := by
  obtain ⟨hp0, hp1⟩ := nextPhase_range o.phaseVal_nonneg h1
  obtain ⟨hw0, hw1⟩ := waveLookup_range o.wave hp0 hp1
  have hlevel : (Machine.advance o P).level.toInt = waveLookup o.wave (nextPhase o.phaseVal P) P :=
    (advance_spec o h1 h2).2
  exact ⟨ho.det_ge, ho.det_le, ho.depth_le, hlevel ▸ hw0, hlevel ▸ hw1⟩

/-- What the push leaves of an oscillator: `det`, phase and level, the waveforms of LFO and MOD, the depth of LFO
(R162). -/
theorem push_get (s : State) (j : OscId) : ∃ b, (push s).osc.get j = { s.osc.get j with
    base := b
    wave := if j = .car then s.voice.act.wave else (s.osc.get j).wave
    depth := if j = .lfo then (s.osc.get j).depth else s.voice.act.intensity } := by
  cases j with
  | lfo =>
    by_cases hr : s.voice.act.rate.toNat > 0
    · exact ⟨_, if_pos hr⟩
    · exact ⟨_, if_neg hr⟩
  | mod => exact ⟨_, rfl⟩
  | car => exact ⟨_, rfl⟩

section keepLegal
variable {s : State} (h : StateLegal s)
include h

theorem StateLegal.raise (c : Condition) : StateLegal (raise c s) := by
  cases c <;> exact ⟨h.cfg, h.osc, h.voice, h.midi⟩

theorem StateLegal.emitRsp (v : PortWord) : StateLegal (emitRsp v s) :=
  ⟨h.cfg, h.osc, h.voice, h.midi⟩

theorem StateLegal.emitAud (l r : PortWord) (last : Bool) : StateLegal (emitAud l r last s) :=
  ⟨h.cfg, h.osc, h.voice, h.midi⟩

theorem StateLegal.idle : StateLegal (idle s) := ⟨h.cfg, h.osc, h.voice, h.midi⟩

theorem StateLegal.accept (rest : List HostInput) : StateLegal (accept rest s) :=
  ⟨h.cfg, h.osc, h.voice, h.midi⟩

theorem StateLegal.setOsc (i : OscId) {o : Osc} (ho : OscLegal o) : StateLegal (s.setOsc i o) := by
  refine ⟨h.cfg, fun j => ?_, h.voice, h.midi⟩
  rw [State.setOsc_osc, OscFile.get_set]
  split
  · exact ho
  · exact h.osc j

/-- Held or advanced, an oscillator stays legal: in a valid configuration its period fits 32 bits (R129, R143). -/
theorem StateLegal.tick (i : OscId) : StateLegal (tick i s) := by
  rcases tick_cases i s with ⟨-, e⟩ | ⟨hf, hP, e⟩
  · rw [e]; exact h
  · have hlt := period_lt s.cfg hf h.cfg
    rw [e]
    exact h.setOsc i ((h.osc i).advance hP (by omega))

theorem StateLegal.tickAll : StateLegal (tickAll s) := ((h.tick .lfo).tick .mod).tick .car

theorem StateLegal.latchAtBufferStart : StateLegal (latchAtBufferStart s) := by
  unfold Machine.latchAtBufferStart
  split
  · obtain ⟨hkey, htfreq, hpend, -, hctr⟩ := h.voice
    exact ⟨h.cfg, h.osc, ⟨hkey, htfreq, hpend, hpend, hctr⟩, h.midi⟩
  · exact h

/-- The only legal value the push could break is a depth, and it stores the active intensity there (R26, R162). -/
theorem StateLegal.push : StateLegal (push s) := by
  refine ⟨h.cfg, fun j => ?_, h.voice, h.midi⟩
  obtain ⟨b, e⟩ := push_get s j
  obtain ⟨d0, d1, dep, l0, l1⟩ := h.osc j
  rw [e]
  refine ⟨d0, d1, ?_, l0, l1⟩
  dsimp only
  split
  · exact dep
  · exact h.voice.act.intensity_le

theorem StateLegal.sample : StateLegal (sample s).1 := by
  cases hk : s.voice.keyActive
  · rw [sample_silent hk]; exact h
  · rw [sample_active hk]; exact h.push.tickAll

/-- The counter is reduced modulo `BUF_FRAMES`, which fits its 32 bits (R10, R35, R166). -/
theorem StateLegal.countFrame : StateLegal (countFrame s) := by
  obtain ⟨hkey, htfreq, hpend, hact, -⟩ := h.voice
  have hctr : (Machine.countFrame s).voice.frameCtr.toNat < s.cfg.bufFrames := by
    have hmod := Nat.mod_lt (s.voice.frameCtr.toNat + 1) h.cfg.bufFrames_pos
    rw [countFrame_frameCtr, BitVec.toNat_ofNat]
    exact lt_of_le_of_lt (Nat.mod_le _ _) hmod
  exact ⟨h.cfg, h.osc, ⟨hkey, htfreq, hpend, hact, hctr⟩, h.midi⟩

/-- A note on stores the key's own table entry, or nothing (R31, R157). -/
theorem StateLegal.noteOn {key : Int} (h0 : 0 ≤ key) : StateLegal (noteOn key s) := by
  rcases noteOn_cases key s with ⟨-, e⟩ | ⟨h1, e⟩ <;> rw [e]
  · exact h
  · obtain ⟨hlo, hhi⟩ := romRead_freq_range h0 (by omega)
    have hkey : ((BitVec.ofInt 7 key).toNat : Int) = key := ofInt_toNat_of_range h0 (by omega)
    have hfreq : ((freqReg (romRead .freq key)).toNat : Int) = romRead .freq key :=
      ofInt_toNat_of_range (by omega) (by omega)
    refine ⟨h.cfg, h.osc, ⟨nofun, fun _ => ?_, h.voice.pend, h.voice.act, h.voice.frameCtr_lt⟩, h.midi⟩
    rw [hkey]
    exact hfreq

theorem StateLegal.noteOff (key : Int) : StateLegal (noteOff key s) := by
  rcases noteOff_cases key s with ⟨-, -, e⟩ | ⟨-, e⟩ <;> rw [e]
  · exact ⟨h.cfg, h.osc, ⟨fun _ => rfl, nofun, h.voice.pend, h.voice.act, h.voice.frameCtr_lt⟩, h.midi⟩
  · exact h

theorem StateLegal.dispatch (b0 b1 b2 : Byte) : StateLegal (dispatch b0 b1 b2 s) := by
  rcases dispatch_cases b0 b1 b2 s with ⟨-, -, e⟩ | ⟨-, e⟩ | ⟨-, -, e⟩ <;> rw [e]
  · exact h.noteOn (Int.natCast_nonneg _)
  · exact h.noteOff _
  · exact h

theorem StateLegal.withMidi {m : Midi} (hm : MidiLegal m) : StateLegal { s with midi := m } :=
  ⟨h.cfg, h.osc, h.voice, hm⟩

/-- Status matching keeps `status` a note status byte while a message is partial (R37, R182). -/
theorem StateLegal.matchStatus (b : Byte) : StateLegal (matchStatus b s) := by
  unfold Machine.matchStatus
  split
  · next hb => exact h.withMidi ⟨h.midi.data1_data, fun _ => hb⟩
  · exact h.withMidi ⟨h.midi.data1_data, fun hne => absurd rfl hne⟩

end keepLegal

@[simp] theorem State.resetOf_get (c : Cfg) (i : OscId) : (State.resetOf c).osc.get i = Osc.reset := by
  cases i <;> rfl

/-- `RATE_LO` of a valid configuration fits the 31 bits of the rate (R11, R41). -/
theorem Controls.reset_rate_toNat {c : Cfg} (hc : c.Valid) : (Controls.reset c).rate.toNat = c.rateLo := by
  have hle := hc.rateLo_le_hi
  have hlt := hc.rateHi_lt
  exact (BitVec.toNat_ofNat _ _).trans (Nat.mod_eq_of_lt (by omega))

/-- The reset state of a valid configuration is legal (R41). -/
theorem StateLegal.resetOf {c : Cfg} (hc : c.Valid) : StateLegal (State.resetOf c) := by
  have hrate := Controls.reset_rate_toNat hc
  have hcontrols : ControlsLegal c (Controls.reset c) :=
    ⟨Nat.zero_le _, hrate.ge, hrate.trans_le hc.rateLo_le_hi⟩
  have hdata : isStatusByte 0 = false := by decide
  exact ⟨hc, fun i => State.resetOf_get c i ▸ OscLegal.reset,
    ⟨fun _ => rfl, nofun, hcontrols, hcontrols, hc.bufFrames_pos⟩, ⟨hdata, fun hne => absurd rfl hne⟩⟩

/-- What holds of some next state of a command holds of every one: a command answers once. -/
theorem of_exec_next {P : State → Prop} {i : Instr} {s t : State} (he : exec i s = .next t)
    (hu : ∃ u, exec i s = .next u ∧ P u) : P t := by
  obtain ⟨u, hu, hP⟩ := hu
  obtain rfl : u = t := Host.Outcome.next.inj (hu.symm.trans he)
  exact hP

/-- Every command keeps the invariant. -/
theorem exec_keeps_legal {i : Instr} {s t : State} (h : StateLegal s) (he : exec i s = .next t) :
    StateLegal t := by
  refine of_exec_next he ?_
  cases i with
  | nop => exact ⟨s, rfl, h⟩
  | oscSetWaveform osc w =>
    obtain ⟨d0, d1, dep, l0, l1⟩ := h.osc osc
    rcases execOscSetWaveform_cases osc w s with ⟨-, e⟩ | ⟨-, e⟩
    · exact ⟨_, e, h.setOsc osc ⟨d0, d1, dep, l0, l1⟩⟩
    · exact ⟨_, e, h.raise _⟩
  | oscSetFreq osc hz =>
    obtain ⟨d0, d1, dep, l0, l1⟩ := h.osc osc
    rcases execOscSetFreq_cases osc hz s with ⟨-, e⟩ | ⟨-, e⟩
    · exact ⟨_, e, h.setOsc osc ⟨d0, d1, dep, l0, l1⟩⟩
    · exact ⟨_, e, h⟩
  | oscSetDetune osc d =>
    obtain ⟨-, -, dep, l0, l1⟩ := h.osc osc
    rcases execOscSetDetune_cases osc d s with ⟨hd, e⟩ | ⟨-, e⟩
    · obtain ⟨d0, d1⟩ := (detuneInDomain_iff d).1 hd
      have hdet := detuneCode_toInt d0 d1
      exact ⟨_, e, h.setOsc osc ⟨hdet.symm ▸ d0, hdet.symm ▸ d1, dep, l0, l1⟩⟩
    · exact ⟨_, e, h.raise _⟩
  | oscSetModdepth osc x =>
    obtain ⟨d0, d1, -, l0, l1⟩ := h.osc osc
    rcases execOscSetModdepth_cases osc x s with ⟨hx, e⟩ | ⟨-, e⟩
    · have hle := (depthInDomain_iff x).1 hx
      exact ⟨_, e, h.setOsc osc ⟨d0, d1, (depthCode_toNat hle).trans_le hle, l0, l1⟩⟩
    · exact ⟨_, e, h.raise _⟩
  | oscTick osc => exact ⟨_, rfl, h.tick osc⟩
  | oscReadLevel osc => exact ⟨_, rfl, h.emitRsp _⟩
  | setPot paramId raw =>
    obtain ⟨hkey, htfreq, hpend, hact, hctr⟩ := h.voice
    exact ⟨_, rfl, h.cfg, h.osc, ⟨hkey, htfreq, hpend.potWrite h.cfg paramId raw, hact, hctr⟩, h.midi⟩
  | noteOn key => exact ⟨_, rfl, h.noteOn (Int.natCast_nonneg _)⟩
  | noteOff key => exact ⟨_, rfl, h.noteOff _⟩
  | render => exact ⟨_, rfl, h.latchAtBufferStart.sample.countFrame.emitAud _ _ _⟩
  | midiByte b =>
    obtain ⟨hdata, hnote⟩ := h.midi
    rcases execMidiByte_cases b s with ⟨-, e⟩ | ⟨hst, hb, e⟩ | ⟨-, -, e⟩
    · exact ⟨_, e, h.matchStatus b⟩
    · exact ⟨_, e, h.withMidi ⟨hb, fun _ => hnote (by simp [hst])⟩⟩
    · have hlegal : StateLegal { s with midi := { s.midi with state := .awaitingStatus } } :=
        h.withMidi ⟨hdata, fun hne => absurd rfl hne⟩
      exact ⟨_, e, hlegal.dispatch _ _ _⟩
  | midiPacket b0 b1 b2 => exact ⟨_, rfl, h.dispatch b0 b1 b2⟩
  | status => exact ⟨_, rfl, h.emitRsp _⟩

/-- Settles O12: waiting, reset, a legal word (`exec_keeps_legal`) and an illegal word each keep the invariant. -/
theorem stepKeepsLegal : Obligations.StepKeepsLegal := by
  unfold Obligations.StepKeepsLegal
  intro s t h hst
  rcases step_cases s with ⟨-, e⟩ | ⟨rest, -, e⟩ | ⟨w, rest, i, -, -, e⟩ | ⟨w, rest, r, -, -, e⟩ <;>
    rw [e] at hst
  · obtain rfl := Host.Outcome.next.inj hst
    exact h.idle
  · obtain rfl := Host.Outcome.next.inj hst
    obtain ⟨hcfg, hosc, hvoice, hmidi⟩ := StateLegal.resetOf h.cfg
    exact ⟨hcfg, hosc, hvoice, hmidi⟩
  · exact exec_keeps_legal (h.accept rest) hst
  · obtain rfl := Host.Outcome.next.inj hst
    exact (h.accept rest).raise _

/-- Settles O11: `StateLegal.resetOf`, and the default configuration is valid (log 2). -/
theorem resetIsLegal : Obligations.ResetIsLegal := by
  unfold Obligations.ResetIsLegal
  have hdefault : Cfg.default.Valid := by constructor <;> decide
  exact ⟨fun _ => StateLegal.resetOf, StateLegal.resetOf hdefault⟩

end Sys2Proof.Machine
end

section
/-! The footprint of each command: what it may write, register by register (the write columns of R40). -/

namespace Sys2Proof.Machine

/-- What a command may do to oscillator `j`, from `a`: keep it, or write the fields of the command's row. -/
inductive OscWrite (j : OscId) (a : Osc) : Instr → Osc → Prop
  | keep {i : Instr} : OscWrite j a i a
  | wave (w : BitVec 32) (x : Waveform) : OscWrite j a (.oscSetWaveform j w) { a with wave := x }
  | base (hz : BitVec 32) (x : BitVec 31) : OscWrite j a (.oscSetFreq j hz) { a with base := x }
  | det (d : BitVec 32) (x : BitVec 9) : OscWrite j a (.oscSetDetune j d) { a with det := x }
  | depth (d : BitVec 32) (x : BitVec 17) : OscWrite j a (.oscSetModdepth j d) { a with depth := x }
  | tick (p : BitVec 32) (l : BitVec 18) : OscWrite j a (.oscTick j) { a with phase := p, level := l }
  | render {b : Osc} : b.det = a.det → (j ≠ .car → b.wave = a.wave) → (j = .lfo → b.depth = a.depth) →
      OscWrite j a .render b

/-- What a command may do to the voice, from `v`. -/
inductive VoiceWrite (v : Voice) : Instr → Voice → Prop
  | keep {i : Instr} : VoiceWrite v i v
  | setPot (paramId raw : BitVec 16) (p : Controls) : VoiceWrite v (.setPot paramId raw) { v with pend := p }
  | noteOn (k : BitVec 32) (a : Bool) (key : BitVec 7) (f : BitVec 31) :
      VoiceWrite v (.noteOn k) { v with keyActive := a, key := key, tfreq := f }
  | noteOff (k : BitVec 32) (a : Bool) (key : BitVec 7) :
      VoiceWrite v (.noteOff k) { v with keyActive := a, key := key }
  | midiByte (b : Byte) {u : Voice} : u.pend = v.pend → u.act = v.act → u.frameCtr = v.frameCtr →
      VoiceWrite v (.midiByte b) u
  | midiPacket (b0 b1 b2 : Byte) {u : Voice} : u.pend = v.pend → u.act = v.act → u.frameCtr = v.frameCtr →
      VoiceWrite v (.midiPacket b0 b1 b2) u
  | render (act : Controls) (ctr : BitVec 32) : VoiceWrite v .render { v with act := act, frameCtr := ctr }

/-- What a command may do to the decoder registers. -/
inductive MidiWrite (m : Midi) : Instr → Midi → Prop
  | keep {i : Instr} : MidiWrite m i m
  | midiByte (b : Byte) (m' : Midi) : MidiWrite m (.midiByte b) m'

/-- What a command may do to the sticky flags. -/
inductive ErrWrite (e : Err) : Instr → Err → Prop
  | keep {i : Instr} : ErrWrite e i e
  | waveform (j : OscId) (w : BitVec 32) : ErrWrite e (.oscSetWaveform j w) { e with contract := true }
  | detune (j : OscId) (d : BitVec 32) : ErrWrite e (.oscSetDetune j d) { e with contract := true }
  | moddepth (j : OscId) (x : BitVec 32) : ErrWrite e (.oscSetModdepth j x) { e with contract := true }

/-- What a command may do to the output ports (R82, R83). -/
inductive OutWrite (o : Output) : Instr → Output → Prop
  | keep {i : Instr} : OutWrite o i o
  | readLevel (j : OscId) (o' : Output) : OutWrite o (.oscReadLevel j) o'
  | render (o' : Output) : OutWrite o .render o'
  | status (o' : Output) : OutWrite o .status o'

/-- Every register set of `t` comes from that of `s` by a write of the command's row. -/
structure Footprint (i : Instr) (s t : State) : Prop where
  osc : ∀ j, OscWrite j (s.osc.get j) i (t.osc.get j)
  voice : VoiceWrite s.voice i t.voice
  midi : MidiWrite s.midi i t.midi
  err : ErrWrite s.err i t.err
  out : OutWrite s.out i t.out

section rows
variable {i : Instr} {j : OscId}

theorem OscWrite.wave_writers {a b : Osc} (h : OscWrite j a i b) (hne : b.wave ≠ a.wave) :
    (∃ w, i = .oscSetWaveform j w) ∨ (i = .render ∧ j = .car) := by
  cases h with
  | wave w x => exact .inl ⟨w, rfl⟩
  | render _ hwave _ => exact .inr ⟨rfl, by_contra fun hj => hne (hwave hj)⟩
  | _ => exact absurd rfl hne

theorem OscWrite.base_writers {a b : Osc} (h : OscWrite j a i b) (hne : b.base ≠ a.base) :
    (∃ hz, i = .oscSetFreq j hz) ∨ i = .render := by
  cases h with
  | base hz x => exact .inl ⟨hz, rfl⟩
  | render => exact .inr rfl
  | _ => exact absurd rfl hne

theorem OscWrite.det_writers {a b : Osc} (h : OscWrite j a i b) (hne : b.det ≠ a.det) :
    ∃ d, i = .oscSetDetune j d := by
  cases h with
  | det d x => exact ⟨d, rfl⟩
  | render hdet => exact absurd hdet hne
  | _ => exact absurd rfl hne

theorem OscWrite.depth_writers {a b : Osc} (h : OscWrite j a i b) (hne : b.depth ≠ a.depth) :
    (∃ x, i = .oscSetModdepth j x) ∨ (i = .render ∧ j ≠ .lfo) := by
  cases h with
  | depth d x => exact .inl ⟨d, rfl⟩
  | render _ _ hdepth => exact .inr ⟨rfl, fun hj => hne (hdepth hj)⟩
  | _ => exact absurd rfl hne

theorem OscWrite.phase_level_writers {a b : Osc} (h : OscWrite j a i b)
    (hne : b.phase ≠ a.phase ∨ b.level ≠ a.level) : i = .oscTick j ∨ i = .render := by
  cases h with
  | tick p l => exact .inl rfl
  | render => exact .inr rfl
  | _ => simp at hne

theorem VoiceWrite.key_writers {v u : Voice} (h : VoiceWrite v i u)
    (hne : u.keyActive ≠ v.keyActive ∨ u.key ≠ v.key) :
    (∃ k, i = .noteOn k) ∨ (∃ k, i = .noteOff k) ∨ (∃ b, i = .midiByte b) ∨
      ∃ b0 b1 b2, i = .midiPacket b0 b1 b2 := by
  cases h with
  | noteOn k => exact .inl ⟨k, rfl⟩
  | noteOff k => exact .inr (.inl ⟨k, rfl⟩)
  | midiByte b => exact .inr (.inr (.inl ⟨b, rfl⟩))
  | midiPacket b0 b1 b2 => exact .inr (.inr (.inr ⟨b0, b1, b2, rfl⟩))
  | _ => simp at hne

theorem VoiceWrite.tfreq_writers {v u : Voice} (h : VoiceWrite v i u) (hne : u.tfreq ≠ v.tfreq) :
    (∃ k, i = .noteOn k) ∨ (∃ b, i = .midiByte b) ∨ ∃ b0 b1 b2, i = .midiPacket b0 b1 b2 := by
  cases h with
  | noteOn k => exact .inl ⟨k, rfl⟩
  | midiByte b => exact .inr (.inl ⟨b, rfl⟩)
  | midiPacket b0 b1 b2 => exact .inr (.inr ⟨b0, b1, b2, rfl⟩)
  | _ => exact absurd rfl hne

theorem VoiceWrite.pend_writers {v u : Voice} (h : VoiceWrite v i u) (hne : u.pend ≠ v.pend) :
    ∃ p r, i = .setPot p r := by
  cases h with
  | setPot paramId raw => exact ⟨paramId, raw, rfl⟩
  | midiByte _ hpend => exact absurd hpend hne
  | midiPacket _ _ _ hpend => exact absurd hpend hne
  | _ => exact absurd rfl hne

theorem VoiceWrite.act_frameCtr_writers {v u : Voice} (h : VoiceWrite v i u)
    (hne : u.act ≠ v.act ∨ u.frameCtr ≠ v.frameCtr) : i = .render := by
  cases h with
  | render => rfl
  | midiByte _ _ hact hctr => exact absurd hne (by simp [hact, hctr])
  | midiPacket _ _ _ _ hact hctr => exact absurd hne (by simp [hact, hctr])
  | _ => simp at hne

theorem MidiWrite.writers {m m' : Midi} (h : MidiWrite m i m') (hne : m' ≠ m) : ∃ b, i = .midiByte b := by
  cases h with
  | midiByte b => exact ⟨b, rfl⟩
  | keep => exact absurd rfl hne

theorem ErrWrite.contract_writers {e e' : Err} (h : ErrWrite e i e') (hne : e'.contract ≠ e.contract) :
    (∃ j w, i = .oscSetWaveform j w) ∨ (∃ j d, i = .oscSetDetune j d) ∨ ∃ j x, i = .oscSetModdepth j x := by
  cases h with
  | waveform j w => exact .inl ⟨j, w, rfl⟩
  | detune j d => exact .inr (.inl ⟨j, d, rfl⟩)
  | moddepth j x => exact .inr (.inr ⟨j, x, rfl⟩)
  | keep => exact absurd rfl hne

theorem ErrWrite.illegal_eq {e e' : Err} (h : ErrWrite e i e') : e'.illegal = e.illegal := by
  cases h <;> rfl

theorem OutWrite.writers {o o' : Output} (h : OutWrite o i o') (hne : o' ≠ o) :
    (∃ j, i = .oscReadLevel j) ∨ i = .render ∨ i = .status := by
  cases h with
  | readLevel j => exact .inl ⟨j, rfl⟩
  | render => exact .inr (.inl rfl)
  | status => exact .inr (.inr rfl)
  | keep => exact absurd rfl hne

end rows

/-- Replacing one oscillator is a write of oscillator `j` when it is one for the replaced set. -/
theorem oscWrite_set {i : Instr} {f : OscFile} {k : OscId} {o : Osc} (h : OscWrite k (f.get k) i o) (j : OscId) :
    OscWrite j (f.get j) i ((f.set k o).get j) := by
  by_cases hj : j = k
  · subst hj
    rwa [OscFile.get_set_self]
  · rw [OscFile.get_set_of_ne f o hj]
    exact .keep

/-- A tick writes the phase and the level of its own oscillator, or nothing (R129, R144). -/
theorem oscWrite_tick (i : OscId) (s : State) (j : OscId) :
    OscWrite j (s.osc.get j) (.oscTick i) ((tick i s).osc.get j) := by
  rcases tick_cases i s with ⟨-, e⟩ | ⟨-, -, e⟩ <;> rw [e]
  · exact .keep
  · exact oscWrite_set (.tick _ _) j

/-- The three ticks write no oscillator parameter (R133). -/
theorem tickAll_params (s : State) (j : OscId) :
    ((tickAll s).osc.get j).wave = (s.osc.get j).wave ∧ ((tickAll s).osc.get j).base = (s.osc.get j).base ∧
    ((tickAll s).osc.get j).det = (s.osc.get j).det ∧ ((tickAll s).osc.get j).depth = (s.osc.get j).depth := by
  simp [tickAll, tick_params]

/-- A frame leaves every `det`, the waveforms of LFO and MOD, and the depth of LFO (R162). -/
theorem oscWrite_sample (s : State) (j : OscId) :
    OscWrite j (s.osc.get j) .render ((sample s).1.osc.get j) := by
  cases hk : s.voice.keyActive
  · rw [sample_silent hk]
    exact .keep
  · obtain ⟨hwave, -, hdet, hdepth⟩ := tickAll_params (push s) j
    obtain ⟨b, e⟩ := push_get s j
    rw [e] at hwave hdet hdepth
    rw [sample_active hk]
    exact .render hdet (fun hj => hwave.trans (if_neg hj)) (fun hj => hdepth.trans (if_pos hj))

/-- `RENDER` writes the active controls and the frame counter, and nothing else of the voice (R160, R166). -/
theorem voiceWrite_render (s : State) :
    VoiceWrite s.voice .render (countFrame (sample (latchAtBufferStart s)).1).voice := by
  have hlatch : (latchAtBufferStart s).voice = { s.voice with act := (latchAtBufferStart s).voice.act } := by
    unfold latchAtBufferStart
    split <;> rfl
  simp only [countFrame, sample_voice]
  rw [hlatch]
  exact .render _ _

/-- Status matching writes the decoder registers alone (R182). -/
theorem matchStatus_frame (b : Byte) (s : State) : ∃ m, matchStatus b s = { s with midi := m } := by
  unfold matchStatus
  split <;> exact ⟨_, rfl⟩

/-- No command writes outside its row of R40. -/
theorem exec_footprint {i : Instr} {s t : State} (he : exec i s = .next t) : Footprint i s t := by
  refine of_exec_next he ?_
  cases i with
  | nop => exact ⟨s, rfl, fun _ => .keep, .keep, .keep, .keep, .keep⟩
  | oscSetWaveform osc w =>
    rcases execOscSetWaveform_cases osc w s with ⟨-, e⟩ | ⟨-, e⟩
    · exact ⟨_, e, oscWrite_set (.wave w _), .keep, .keep, .keep, .keep⟩
    · exact ⟨_, e, fun _ => .keep, .keep, .keep, .waveform osc w, .keep⟩
  | oscSetFreq osc hz =>
    rcases execOscSetFreq_cases osc hz s with ⟨-, e⟩ | ⟨-, e⟩
    · exact ⟨_, e, oscWrite_set (.base hz _), .keep, .keep, .keep, .keep⟩
    · exact ⟨_, e, fun _ => .keep, .keep, .keep, .keep, .keep⟩
  | oscSetDetune osc d =>
    rcases execOscSetDetune_cases osc d s with ⟨-, e⟩ | ⟨-, e⟩
    · exact ⟨_, e, oscWrite_set (.det d _), .keep, .keep, .keep, .keep⟩
    · exact ⟨_, e, fun _ => .keep, .keep, .keep, .detune osc d, .keep⟩
  | oscSetModdepth osc x =>
    rcases execOscSetModdepth_cases osc x s with ⟨-, e⟩ | ⟨-, e⟩
    · exact ⟨_, e, oscWrite_set (.depth x _), .keep, .keep, .keep, .keep⟩
    · exact ⟨_, e, fun _ => .keep, .keep, .keep, .moddepth osc x, .keep⟩
  | oscTick osc =>
    refine ⟨tick osc s, rfl, oscWrite_tick osc s, ?_, ?_, ?_, ?_⟩
    · rw [tick_voice]; exact .keep
    · rw [tick_midi]; exact .keep
    · rw [tick_err]; exact .keep
    · rw [tick_out]; exact .keep
  | oscReadLevel osc => exact ⟨_, rfl, fun _ => .keep, .keep, .keep, .keep, .readLevel osc _⟩
  | setPot paramId raw => exact ⟨_, rfl, fun _ => .keep, .setPot paramId raw _, .keep, .keep, .keep⟩
  | noteOn key =>
    refine ⟨noteOn key.toNat s, rfl, ?_⟩
    rcases noteOn_cases key.toNat s with ⟨-, e⟩ | ⟨-, e⟩ <;> rw [e]
    · exact ⟨fun _ => .keep, .keep, .keep, .keep, .keep⟩
    · exact ⟨fun _ => .keep, .noteOn key _ _ _, .keep, .keep, .keep⟩
  | noteOff key =>
    refine ⟨noteOff key.toNat s, rfl, ?_⟩
    rcases noteOff_cases key.toNat s with ⟨-, -, e⟩ | ⟨-, e⟩ <;> rw [e]
    · exact ⟨fun _ => .keep, .noteOff key _ _, .keep, .keep, .keep⟩
    · exact ⟨fun _ => .keep, .keep, .keep, .keep, .keep⟩
  | render =>
    refine ⟨_, rfl, fun j => ?_, ?_, ?_, ?_, .render _⟩
    · simpa using oscWrite_sample (latchAtBufferStart s) j
    · exact voiceWrite_render s
    · simpa using MidiWrite.keep
    · simpa using ErrWrite.keep
  | midiByte b =>
    rcases execMidiByte_cases b s with ⟨-, e⟩ | ⟨-, -, e⟩ | ⟨-, -, e⟩
    · obtain ⟨m, hm⟩ := matchStatus_frame b s
      exact ⟨_, e.trans (congrArg Host.Outcome.next hm), fun _ => .keep, .keep, .midiByte b m, .keep, .keep⟩
    · exact ⟨_, e, fun _ => .keep, .keep, .midiByte b _, .keep, .keep⟩
    · obtain ⟨v, hv, hpend, hact, hctr⟩ := dispatch_frame s.midi.status s.midi.data1 b
        { s with midi := { s.midi with state := .awaitingStatus } }
      exact ⟨_, e.trans (congrArg Host.Outcome.next hv), fun _ => .keep, .midiByte b hpend hact hctr,
        .midiByte b _, .keep, .keep⟩
  | midiPacket b0 b1 b2 =>
    obtain ⟨v, hv, hpend, hact, hctr⟩ := dispatch_frame b0 b1 b2 s
    exact ⟨_, congrArg Host.Outcome.next hv, fun _ => .keep, .midiPacket b0 b1 b2 hpend hact hctr,
      .keep, .keep, .keep⟩
  | status => exact ⟨_, rfl, fun _ => .keep, .keep, .keep, .keep, .status _⟩

/-- Settles O54: the writers of each register are read off the command's footprint (`exec_footprint`). -/
theorem commandsWriteOnlyTheirRow : Obligations.CommandsWriteOnlyTheirRow := by
  unfold Obligations.CommandsWriteOnlyTheirRow
  intro i s t he
  obtain ⟨hosc, hvoice, hmidi, herr, hout⟩ := exec_footprint he
  obtain ⟨hcfg, hport⟩ := of_exec_next he (exec_next_frame i s)
  exact ⟨fun j => (hosc j).wave_writers, fun j => (hosc j).base_writers, fun j => (hosc j).det_writers,
    fun j => (hosc j).depth_writers, fun j => (hosc j).phase_level_writers, hvoice.key_writers,
    hvoice.tfreq_writers, hvoice.pend_writers, hvoice.act_frameCtr_writers, hmidi.writers,
    herr.contract_writers, hout.writers, herr.illegal_eq, hcfg, hport⟩

end Sys2Proof.Machine
end

section
/-! Two runs that differ in one voice register: other pending controls (R33), or another target frequency (R31). -/

namespace Sys2Proof.Machine

open Sys2Proof.Claims

/-- The machine with other voice registers. -/
def State.setVoice (s : State) (v : Voice) : State := { s with voice := v }

/-- The commands that neither read nor write a voice register (R40). -/
def ignoresVoice : Instr → Bool
  | .nop | .oscSetWaveform _ _ | .oscSetFreq _ _ | .oscSetDetune _ _ | .oscSetModdepth _ _ | .oscTick _
  | .oscReadLevel _ => true
  | .setPot _ _ | .noteOn _ | .noteOff _ | .render | .midiByte _ | .midiPacket _ _ _ | .status => false

/-- A tick reads no voice register (R142, R143). -/
theorem tick_setVoice (i : OscId) (s : State) (v : Voice) : tick i (s.setVoice v) = (tick i s).setVoice v := by
  have hfreq : instFreq (s.setVoice v) i = instFreq s i := rfl
  have hcfg : (s.setVoice v).cfg = s.cfg := rfl
  unfold tick
  rw [hfreq, hcfg]
  dsimp only
  split_ifs <;> rfl

theorem tickAll_setVoice (s : State) (v : Voice) : tickAll (s.setVoice v) = (tickAll s).setVoice v := by
  simp only [tickAll, tick_setVoice]

/-- A command that ignores the voice does the same beside any other voice, and leaves the voice alone. -/
theorem exec_setVoice {i : Instr} (hi : ignoresVoice i = true) {s t : State} (he : exec i s = .next t) :
    (∀ v, exec i (s.setVoice v) = .next (t.setVoice v)) ∧ t.voice = s.voice := by
  refine of_exec_next (P := fun t => (∀ v, exec i (s.setVoice v) = .next (t.setVoice v)) ∧ t.voice = s.voice)
    he ?_
  cases i with
  | nop => exact ⟨s, rfl, fun _ => rfl, rfl⟩
  | oscSetWaveform osc w =>
    rcases execOscSetWaveform_cases osc w s with ⟨hw, e⟩ | ⟨hw, e⟩
    · exact ⟨_, e, fun _ => if_pos hw, rfl⟩
    · exact ⟨_, e, fun _ => if_neg hw, rfl⟩
  | oscSetFreq osc hz =>
    rcases execOscSetFreq_cases osc hz s with ⟨hf, e⟩ | ⟨hf, e⟩
    · exact ⟨_, e, fun _ => if_pos hf, rfl⟩
    · exact ⟨_, e, fun _ => if_neg (not_lt.2 hf), rfl⟩
  | oscSetDetune osc d =>
    rcases execOscSetDetune_cases osc d s with ⟨hd, e⟩ | ⟨hd, e⟩
    · exact ⟨_, e, fun _ => if_pos hd, rfl⟩
    · exact ⟨_, e, fun _ => if_neg hd, rfl⟩
  | oscSetModdepth osc x =>
    rcases execOscSetModdepth_cases osc x s with ⟨hx, e⟩ | ⟨hx, e⟩
    · exact ⟨_, e, fun _ => if_pos hx, rfl⟩
    · exact ⟨_, e, fun _ => if_neg hx, rfl⟩
  | oscTick osc => exact ⟨tick osc s, rfl, fun v => congrArg _ (tick_setVoice osc s v), tick_voice osc s⟩
  | oscReadLevel osc => exact ⟨_, rfl, fun _ => rfl, rfl⟩
  | setPot | noteOn | noteOff | render | midiByte | midiPacket | status => cases hi

/-- Which note procedure `Dispatch` runs, if any, depends on the message alone (R184). -/
theorem dispatch_eq_note (b0 b1 b2 : Byte) :
    (∀ s, dispatch b0 b1 b2 s = noteOn b1.toNat s) ∨ (∀ s, dispatch b0 b1 b2 s = noteOff b1.toNat s) ∨
      ∀ s, dispatch b0 b1 b2 s = s := by
  by_cases h9 : b0.extractLsb' 4 4 = 0x9
  · by_cases h2 : b2.toNat = 0
    · exact .inr (.inl fun s => by simp [dispatch, h9, h2])
    · exact .inl fun s => by simp [dispatch, h9, Nat.pos_of_ne_zero h2]
  · by_cases h8 : b0.extractLsb' 4 4 = 0x8
    · exact .inr (.inl fun s => by simp [dispatch, h8])
    · exact .inr (.inr fun s => by rw [dispatch, if_neg (h9 ·.1), if_neg (h9 ·.1), if_neg h8])

/-- Beside any voice, `MIDI_BYTE` writes the same decoder registers and dispatches the same message, if any
(R182). -/
theorem execMidiByte_setVoice (b : Byte) (s : State) :
    ∃ m, (∀ v, execMidiByte b (s.setVoice v) = .next ((withMidi s m).setVoice v)) ∨
      ∀ v, execMidiByte b (s.setVoice v) =
        .next (dispatch s.midi.status s.midi.data1 b ((withMidi s m).setVoice v)) := by
  rcases execMidiByte_cases b s with ⟨hst, -⟩ | ⟨hst, hb, -⟩ | ⟨hst, hb, -⟩
  · by_cases hn : isNoteStatus b = true
    · exact ⟨{ s.midi with status := b, state := .awaitingData1 }, .inl fun _ =>
        (if_pos hst).trans (congrArg _ (if_pos hn))⟩
    · exact ⟨{ s.midi with state := .awaitingStatus }, .inl fun _ =>
        (if_pos hst).trans (congrArg _ (if_neg hn))⟩
  · have hno : ¬ (s.midi.state = .awaitingStatus ∨ isStatusByte b = true) := by simp [hst, hb]
    exact ⟨{ s.midi with data1 := b, state := .awaitingData2 }, .inl fun _ =>
      (if_neg hno).trans (if_pos hst)⟩
  · have hno : ¬ (s.midi.state = .awaitingStatus ∨ isStatusByte b = true) := by simp [hst, hb]
    have hno1 : s.midi.state ≠ .awaitingData1 := by simp [hst]
    exact ⟨{ s.midi with state := .awaitingStatus }, .inr fun _ => (if_neg hno).trans (if_neg hno1)⟩

section pend
variable (s : State) (p : Controls)

theorem noteOn_withPend (key : Int) : noteOn key (withPend s p) = withPend (noteOn key s) p := by
  unfold noteOn
  split <;> rfl

theorem noteOff_withPend (key : Int) : noteOff key (withPend s p) = withPend (noteOff key s) p := by
  rw [noteOff, noteOff, apply_ite (withPend · p)]
  rfl

theorem dispatch_withPend (b0 b1 b2 : Byte) :
    dispatch b0 b1 b2 (withPend s p) = withPend (dispatch b0 b1 b2 s) p := by
  rcases dispatch_eq_note b0 b1 b2 with h | h | h
  · rw [h, h, noteOn_withPend]
  · rw [h, h, noteOff_withPend]
  · rw [h, h]

/-- A frame after the latch reads no pending control: the push takes the active ones (R34, R162). -/
theorem sample_withPend : sample (withPend s p) = (withPend (sample s).1 p, (sample s).2) := by
  cases hk : s.voice.keyActive
  · rw [sample_silent hk]
    exact sample_silent hk
  · have hticks : tickAll (push (withPend s p)) = withPend (tickAll (push s)) p := by
      have hset : withPend (tickAll (push s)) p = (tickAll (push s)).setVoice { s.voice with pend := p } := by
        simp [withPend, State.setVoice]
      rw [hset, ← tickAll_setVoice]
      rfl
    rw [sample_active hk, sample_active (s := withPend s p) hk, hticks]
    rfl

/-- In the middle of a buffer `RENDER` reads no pending control (R160). -/
theorem execRender_withPend (h : s.voice.frameCtr ≠ 0) {t : State} (he : execRender s = .next t) :
    execRender (withPend s p) = .next (withPend t p) := by
  have hs : latchAtBufferStart s = s := if_neg h
  have hsp : latchAtBufferStart (withPend s p) = withPend s p := if_neg h
  obtain rfl := Host.Outcome.next.inj he
  rw [execRender, hsp, sample_withPend, hs]
  rfl

end pend

/-- Settles O56: no operation but the latch reads a pending control, and only `SET_POT` writes one. -/
theorem pendingControlsWaitForTheLatch : Obligations.PendingControlsWaitForTheLatch := by
  unfold Obligations.PendingControlsWaitForTheLatch
  intro i s t p hlatch he
  cases hi : ignoresVoice i
  · cases i with
    | setPot paramId raw =>
      obtain rfl := Host.Outcome.next.inj he
      exact ⟨potWrite s.cfg paramId raw p, rfl⟩
    | noteOn key =>
      obtain rfl := Host.Outcome.next.inj he
      exact ⟨p, congrArg _ (noteOn_withPend s p _)⟩
    | noteOff key =>
      obtain rfl := Host.Outcome.next.inj he
      exact ⟨p, congrArg _ (noteOff_withPend s p _)⟩
    | render => exact ⟨p, execRender_withPend s p (fun h => hlatch ⟨rfl, h⟩) he⟩
    | midiByte b =>
      obtain ⟨m, h | h⟩ := execMidiByte_setVoice b s
      · obtain rfl := Host.Outcome.next.inj ((h s.voice).symm.trans he)
        exact ⟨p, h { s.voice with pend := p }⟩
      · obtain rfl := Host.Outcome.next.inj ((h s.voice).symm.trans he)
        exact ⟨p, (h { s.voice with pend := p }).trans
          (congrArg _ (dispatch_withPend ((withMidi s m).setVoice s.voice) p _ _ _))⟩
    | midiPacket b0 b1 b2 =>
      obtain rfl := Host.Outcome.next.inj he
      exact ⟨p, congrArg _ (dispatch_withPend s p b0 b1 b2)⟩
    | status =>
      obtain rfl := Host.Outcome.next.inj he
      exact ⟨p, rfl⟩
    | _ => cases hi
  · obtain ⟨hset, hvoice⟩ := exec_setVoice hi he
    refine ⟨p, (hset { s.voice with pend := p }).trans ?_⟩
    rw [← hvoice]
    rfl

/-- The state `u` is `t`, or `t` with another target frequency while no key is active (R248). -/
def StaleAtMost (f : BitVec 31) (t u : State) : Prop :=
  u = t ∨ (t.voice.keyActive = false ∧ u = withTfreq t f)

section stale
variable {s : State} (hk : s.voice.keyActive = false) (f : BitVec 31)
include hk

theorem staleAtMost_withTfreq : StaleAtMost f s (withTfreq s f) := .inr ⟨hk, rfl⟩

/-- A note on overwrites the stale frequency, or is ignored (R157). -/
theorem noteOn_stale (key : Int) : StaleAtMost f (noteOn key s) (noteOn key (withTfreq s f)) := by
  rcases noteOn_cases key s with ⟨h, e⟩ | ⟨h, e⟩
  · rw [e, noteOn, if_pos h]
    exact staleAtMost_withTfreq hk f
  · rw [e, noteOn, if_neg (not_lt.2 h)]
    exact .inl rfl

/-- With no key active a note off does nothing (R158). -/
theorem noteOff_inactive (key : Int) : noteOff key s = s :=
  if_neg (by simp [hk])

theorem noteOff_stale (key : Int) : StaleAtMost f (noteOff key s) (noteOff key (withTfreq s f)) := by
  rw [noteOff_inactive hk, noteOff_inactive (s := withTfreq s f) hk]
  exact staleAtMost_withTfreq hk f

theorem dispatch_stale (b0 b1 b2 : Byte) :
    StaleAtMost f (dispatch b0 b1 b2 s) (dispatch b0 b1 b2 (withTfreq s f)) := by
  rcases dispatch_eq_note b0 b1 b2 with h | h | h
  · rw [h, h]; exact noteOn_stale hk f _
  · rw [h, h]; exact noteOff_stale hk f _
  · rw [h, h]; exact staleAtMost_withTfreq hk f

/-- A silent frame does not read the target frequency (R161). -/
theorem execRender_stale {t : State} (he : execRender s = .next t) :
    t.voice.keyActive = false ∧ execRender (withTfreq s f) = .next (withTfreq t f) := by
  have hlatch : latchAtBufferStart (withTfreq s f) = withTfreq (latchAtBufferStart s) f := by
    rw [latchAtBufferStart, latchAtBufferStart, apply_ite (withTfreq · f)]
    rfl
  have hl : (latchAtBufferStart s).voice.keyActive = false := by simpa using hk
  obtain rfl := Host.Outcome.next.inj he
  refine ⟨by simpa using hk, ?_⟩
  rw [execRender, hlatch, sample_silent (s := withTfreq _ f) hl, sample_silent hl]
  rfl

/-- Every command carries a stale target frequency along, or overwrites it. -/
theorem exec_stale {i : Instr} {t : State} (he : exec i s = .next t) :
    ∃ u, exec i (withTfreq s f) = .next u ∧ StaleAtMost f t u := by
  cases hi : ignoresVoice i
  · cases i with
    | setPot paramId raw =>
      obtain rfl := Host.Outcome.next.inj he
      exact ⟨_, rfl, .inr ⟨hk, rfl⟩⟩
    | noteOn key =>
      obtain rfl := Host.Outcome.next.inj he
      exact ⟨_, rfl, noteOn_stale hk f _⟩
    | noteOff key =>
      obtain rfl := Host.Outcome.next.inj he
      exact ⟨_, rfl, noteOff_stale hk f _⟩
    | render => exact ⟨_, (execRender_stale hk f he).2, .inr ⟨(execRender_stale hk f he).1, rfl⟩⟩
    | midiByte b =>
      obtain ⟨m, h | h⟩ := execMidiByte_setVoice b s
      · obtain rfl := Host.Outcome.next.inj ((h s.voice).symm.trans he)
        exact ⟨_, h { s.voice with tfreq := f }, .inr ⟨hk, rfl⟩⟩
      · obtain rfl := Host.Outcome.next.inj ((h s.voice).symm.trans he)
        exact ⟨_, h { s.voice with tfreq := f },
          dispatch_stale (s := (withMidi s m).setVoice s.voice) hk f _ _ _⟩
    | midiPacket b0 b1 b2 =>
      obtain rfl := Host.Outcome.next.inj he
      exact ⟨_, rfl, dispatch_stale hk f b0 b1 b2⟩
    | status =>
      obtain rfl := Host.Outcome.next.inj he
      exact ⟨_, rfl, .inr ⟨hk, rfl⟩⟩
    | _ => cases hi
  · obtain ⟨hset, hvoice⟩ := exec_setVoice hi he
    refine ⟨_, hset { s.voice with tfreq := f }, .inr ⟨hvoice ▸ hk, ?_⟩⟩
    rw [← hvoice]
    rfl

end stale

/-- Settles O57: a stale frequency is carried along or overwritten by every command (`exec_stale`). -/
theorem staleFrequencyIsNeverUsed : Obligations.StaleFrequencyIsNeverUsed := by
  unfold Obligations.StaleFrequencyIsNeverUsed
  intro i s t f hk he
  obtain ⟨u, hu, rfl | ⟨hkt, rfl⟩⟩ := exec_stale hk f he
  · exact .inl hu
  · exact .inr ⟨hkt, hu⟩

end Sys2Proof.Machine
end

section
/-! A reset event gives every field the value of R41's table. -/

namespace Sys2Proof.Machine

/-- A reset event at the front of the port is taken as `takeReset` (R240). -/
theorem step_rst {s : State} {rest : List HostInput} (h : s.cmdPort = .rst :: rest) :
    step s = .next (takeReset rest s) := by
  simp [step, h]

/-- Settles O10: the step is `takeReset`; of the table's values only `RATE_LO` needs the valid configuration. -/
theorem resetGivesEveryFieldItsValue : Obligations.ResetGivesEveryFieldItsValue := by
  unfold Obligations.ResetGivesEveryFieldItsValue
  intro s rest hc h
  have hrate := Controls.reset_rate_toNat hc
  refine ⟨takeReset rest s, step_rst h, fun i => ?_, rfl, rfl, rfl, rfl, rfl, rfl, rfl, hrate, hrate, rfl, rfl,
    rfl, rfl, rfl, rfl, rfl, rfl, rfl, rfl, rfl⟩
  rw [takeReset_osc, State.resetOf_get]
  exact ⟨rfl, rfl, rfl, rfl, rfl, rfl⟩

end Sys2Proof.Machine
end

section
/-! What a step takes from the command port, and the command it runs (R66, R81). -/

namespace Sys2Proof.Machine

/-- A legal word at the front of the port is accepted and its command executed (R81, R88). -/
theorem step_cmd {s : State} {w : CmdWord} {rest : List HostInput} {i : Instr}
    (h : s.cmdPort = .cmd w :: rest) (hd : decode w = .ok i) : step s = exec i (accept rest s) := by
  simp [step, h, hd]

/-- Every step leaves on the port all but the oldest input: reset, a command (`exec_next_frame`) and an illegal word
take one, and with nothing presented nothing is taken (R81, R240). -/
theorem step_next_cmdPort (s : State) : ∃ t, step s = .next t ∧ t.cmdPort = s.cmdPort.tail := by
  rcases step_cases s with ⟨hp, h⟩ | ⟨rest, hp, h⟩ | ⟨w, rest, i, hp, -, h⟩ | ⟨w, rest, e, hp, -, h⟩ <;> rw [hp]
  · exact ⟨_, h, hp⟩
  · exact ⟨_, h, takeReset_cmdPort rest s⟩
  · obtain ⟨t, ht, -, hport⟩ := exec_next_frame i (accept rest s)
    exact ⟨t, h.trans ht, hport⟩
  · exact ⟨_, h, raise_cmdPort _ _⟩

/-- Settles O14: `step_next_cmdPort`, with one input presented first. -/
theorem stepTakesOldestInput : Obligations.StepTakesOldestInput := by
  unfold Obligations.StepTakesOldestInput
  intro s t x rest hx hst
  obtain ⟨u, hsu, hport⟩ := step_next_cmdPort s
  obtain rfl : u = t := Host.Outcome.next.inj (hsu.symm.trans hst)
  rw [hport, hx, List.tail_cons]

/-- Settles O7: `accept` is the port without the word and the strobes low. -/
theorem stepRunsDecodedCommand : Obligations.StepRunsDecodedCommand := by
  unfold Obligations.StepRunsDecodedCommand
  intro s w rest i h hd
  exact step_cmd h hd

end Sys2Proof.Machine
end

section
/-! Reads inside the tables (R65), and the four shapes of the lookup (R102 to R105). -/

namespace Sys2Proof.Machine

open Sys2Proof.Claims

/-- Inside a table a read gives the entry at the index, so not the free value (R18). -/
theorem romContents_getElem? (T : Rom) {k : Int} (h0 : 0 ≤ k) (h1 : k < (romContents T).length) :
    (romContents T)[k.toNat]? = some (romRead T k) := by
  obtain ⟨n, rfl⟩ := Int.eq_ofNat_of_zero_le h0
  have hn : n < (romContents T).length := by omega
  simp [romRead, hn]

/-- The sine index of a phase inside its period lies inside `SINE_ROM` (R65, R102). -/
theorem sineRom_getElem?_of_phase {phase period : Int} (h0 : 0 ≤ phase) (h1 : phase < period) :
    (romContents .sine)[(fdiv (phase * 360) period).toNat]? = some (sineLevel phase period) := by
  obtain ⟨hlo, hhi⟩ := fdiv_scale_range (k := 360) h0 h1 (by norm_num)
  exact romContents_getElem? .sine hlo (by rw [sineRom_length]; exact hhi)

/-- Settles O35: legal detune codes, 3-bit ratio indices, keys up to 127 and phases inside their period are indices
inside the four tables. -/
theorem tablesAreReadInRange : Obligations.TablesAreReadInRange := by
  unfold Obligations.TablesAreReadInRange
  intro s h
  refine ⟨fun i => ?_, ?_, fun key hkey => ?_, fun phase period h0 h1 => sineRom_getElem?_of_phase h0 h1⟩
  · have hge := (h.osc i).det_ge
    have hle := (h.osc i).det_le
    exact romContents_getElem? .detune (by omega) (by rw [detuneRom_length]; omega)
  · have hlt := s.voice.act.ratioIdx.isLt
    exact romContents_getElem? .ratio (Int.natCast_nonneg _) (by rw [ratioRom_length]; omega)
  · exact romContents_getElem? .freq (Int.natCast_nonneg _) (by rw [freqRom_length]; omega)

/-- `fdiv_spec` in the words of the statements (R18). -/
theorem isFloor_fdiv (a : Int) {b : Int} (hb : 0 < b) : IsFloor (fdiv a b) a b := by
  obtain ⟨hle, hlt⟩ := fdiv_spec a hb
  exact ⟨hle, by rw [mul_add, mul_one]; exact hlt⟩

/-- The triangle rises in the first half (R105). -/
theorem triangleLevel_of_firstHalf {phase period : Int} (h : 2 * phase < period) :
    triangleLevel phase period = fdiv (phase * 262144) period - 65536 :=
  if_pos h

/-- The triangle falls from half the period on (R105). -/
theorem triangleLevel_of_secondHalf {phase period : Int} (h : period ≤ 2 * phase) :
    triangleLevel phase period = 196608 - fdiv (phase * 262144) period :=
  if_neg (not_lt.2 h)

/-- Settles O31: every quotient is an `fdiv`, so a floor, and the sine's lies inside its table. -/
theorem waveShapes : Obligations.WaveShapes := by
  unfold Obligations.WaveShapes
  intro phase period hp h0 h1
  simp only [waveLookup]
  obtain ⟨hlo, hhi⟩ := fdiv_scale_range (k := 360) h0 h1 (by norm_num)
  refine ⟨⟨(fdiv (phase * 360) period).toNat, by omega, ?_, sineRom_getElem?_of_phase h0 h1⟩, fun h => if_pos h,
    fun h => if_neg (not_lt.2 h), ?_, (sawtoothLevel_range h0 h1).2, fun h => ?_, fun h => ?_⟩
  · rw [Int.toNat_of_nonneg hlo]
    exact isFloor_fdiv _ hp
  · rw [sawtoothLevel, sub_add_cancel]
    exact isFloor_fdiv _ hp
  · rw [triangleLevel_of_firstHalf h, sub_add_cancel]
    exact isFloor_fdiv _ hp
  · rw [triangleLevel_of_secondHalf h, sub_sub_cancel]
    exact isFloor_fdiv _ hp

end Sys2Proof.Machine
end

section
/-! The laws of the frequency and the detune table (R122, R151), tested exactly at every entry. -/

namespace Sys2Proof.Machine

/-- Settles O33: the table is finite, and each clause is an exact test on whole numbers at every entry. -/
theorem frequencyTableIsEqualTempered : Obligations.FrequencyTableIsEqualTempered := by
  unfold Obligations.FrequencyTableIsEqualTempered
  refine ⟨freqRom_length, ?nearest, ?increasing, ?sum, ?key60, ?key69⟩
  case nearest => decide +kernel
  case increasing => decide +kernel
  case sum => decide +kernel
  case key60 => rfl
  case key69 => rfl

/-- Settles O34: the table is finite, and each clause is an exact test on whole numbers at every entry. -/
theorem detuneTableIsThePowerLaw : Obligations.DetuneTableIsThePowerLaw := by
  unfold Obligations.DetuneTableIsThePowerLaw
  refine ⟨detuneRom_length, ?nearest, ?increasing, ?sum, ?checkEntries⟩
  case nearest => decide +kernel
  case increasing => decide +kernel
  case sum => decide +kernel
  case checkEntries => exact ⟨rfl, rfl, rfl, rfl, rfl, rfl, rfl⟩

end Sys2Proof.Machine
end

section
/-! What decoding answers, check by check (R88), and the bits of `OSC` and `ARG` a format leaves free (R84, R85). -/

namespace Sys2Proof

/-- How many low bits of `ARG` a format uses; the bits above must be zero (R85). -/
def Format.argBits : Format → Nat
  | .N | .T => 0
  | .V | .P | .K => 32
  | .B => 8
  | .M => 24

theorem Format.getLsbD_mustBeZero (f : Format) :
    ∀ j < 32, f.mustBeZero.getLsbD j = decide (f.argBits ≤ j) := by
  cases f <;> decide

/-- Check (4) of R88 as a bound: `ARG` fits the bits its format uses. -/
theorem and_mustBeZero_eq_zero_iff {f : Format} {arg : BitVec 32} :
    arg &&& f.mustBeZero = 0 ↔ arg.toNat < 2 ^ f.argBits := by
  constructor
  · intro h
    refine Nat.lt_pow_two_of_testBit _ fun j hj => ?_
    rw [BitVec.testBit_toNat]
    by_cases hj32 : j < 32
    · have hbit : (arg &&& f.mustBeZero).getLsbD j = false := by rw [h]; exact BitVec.getLsbD_zero
      simpa [BitVec.getLsbD_and, f.getLsbD_mustBeZero j hj32, hj] using hbit
    · exact BitVec.getLsbD_of_ge arg j (not_lt.1 hj32)
  · intro h
    refine BitVec.eq_of_getLsbD_eq fun j hj => ?_
    rw [BitVec.getLsbD_and, f.getLsbD_mustBeZero j hj]
    by_cases hjf : f.argBits ≤ j
    · have hbit : arg.getLsbD j = false :=
        Nat.testBit_lt_two_pow (h.trans_le (Nat.pow_le_pow_right (by norm_num) hjf))
      simp [hbit]
    · simp [hjf]

/-- An `ARG` of no bits is zero. -/
theorem toNat_lt_one_iff {arg : BitVec 32} : arg.toNat < 1 ↔ arg = 0 := by
  rw [Nat.lt_one_iff, ← BitVec.toNat_inj]
  rfl

section oscOperand
variable {f : Format} {osc : BitVec 2} {j : OscId}

/-- The formats V and T take the oscillator that `OSC` selects (R84). -/
theorem Format.oscOperand_of_selects (hf : f.selectsOsc = true) : f.oscOperand osc = OscId.ofSelect osc := by
  rw [Format.oscOperand, hf]

/-- A format that selects no oscillator takes the select `00` alone (R84). -/
theorem Format.oscOperand_of_plain (hf : f.selectsOsc = false) :
    f.oscOperand osc = if osc = 0 then some .lfo else none := by
  rw [Format.oscOperand, hf]

/-- The one select of an oscillator (R84). -/
theorem OscId.select_of_ofSelect (h : OscId.ofSelect osc = some j) : j.select = osc := by
  revert j
  revert osc
  decide

/-- Every select but 3 names an oscillator (R84). -/
theorem OscId.exists_ofSelect (h : osc ≠ 3) : ∃ i, OscId.ofSelect osc = some i := by
  rw [← Option.isSome_iff_exists]
  revert osc
  decide

end oscOperand

/-- `OPC` selects the row whose opcode it is (R86). -/
theorem Mnemonic.ofOpcode_eq_some_iff {opc : BitVec 4} {m : Mnemonic} :
    Mnemonic.ofOpcode opc = some m ↔ opc = m.opcode := by
  constructor
  · exact fun h => (Mnemonic.opcode_of_ofOpcode h).symm
  · rintro rfl
    exact Mnemonic.ofOpcode_opcode m

section checks
variable {w : CmdWord} {m : Mnemonic} {j : OscId}

/-- Check (1) of R88. -/
theorem decode_zNotZero (hz : zField w ≠ 0) : decode w = .error .zNotZero :=
  if_pos hz

/-- Check (2) of R88. -/
theorem decode_reservedOpcode (hz : zField w = 0) (hm : Mnemonic.ofOpcode (opcField w) = none) :
    decode w = .error .reservedOpcode := by
  simp [decode, hz, hm]

/-- Check (3) of R88. -/
theorem decode_oscField (hz : zField w = 0) (hm : opcField w = m.opcode)
    (ho : m.format.oscOperand (oscField w) = none) : decode w = .error .oscField := by
  simp [decode, hz, hm, ho]

/-- Check (4) of R88. -/
theorem decode_argNotZero (hz : zField w = 0) (hm : opcField w = m.opcode)
    (ho : m.format.oscOperand (oscField w) = some j) (ha : 2 ^ m.format.argBits ≤ (argField w).toNat) :
    decode w = .error .argNotZero := by
  have hne : argField w &&& m.format.mustBeZero ≠ 0 := fun h => not_lt.2 ha (and_mustBeZero_eq_zero_iff.1 h)
  simpa [decode, hz, hm, ho] using hne

/-- A word that passes the four checks is the row's command (R88, check (5)). -/
theorem decode_row (hz : zField w = 0) (hm : opcField w = m.opcode)
    (ho : m.format.oscOperand (oscField w) = some j) (ha : (argField w).toNat < 2 ^ m.format.argBits) :
    decode w = .ok (m.withOperands j (argField w)) := by
  simp [decode, hz, hm, ho, and_mustBeZero_eq_zero_iff.2 ha]

end checks

/-- The legal words: those of a row, with an oscillator its format allows and an `ARG` that fits the format (R88). -/
theorem decode_eq_ok_iff {w : CmdWord} {i : Instr} :
    decode w = .ok i ↔ ∃ (m : Mnemonic) (j : OscId), zField w = 0 ∧ opcField w = m.opcode ∧
      m.format.oscOperand (oscField w) = some j ∧ (argField w).toNat < 2 ^ m.format.argBits ∧
      m.withOperands j (argField w) = i := by
  constructor
  · intro h
    rcases decode_cases w with ⟨-, e⟩ | ⟨-, -, e⟩ | ⟨m, -, -, -, e⟩ | ⟨m, j, -, -, -, -, e⟩ |
      ⟨m, j, hz, hm, ho, ha, e⟩ <;> rw [e] at h
    case inr.inr.inr.inr =>
      exact ⟨m, j, hz, Mnemonic.ofOpcode_eq_some_iff.1 hm, ho, and_mustBeZero_eq_zero_iff.1 ha, Except.ok.inj h⟩
    all_goals cases h
  · rintro ⟨m, j, hz, hm, ho, ha, rfl⟩
    exact decode_row hz hm ho ha

end Sys2Proof
end

section
/-! Decoding and encoding undo each other (R84, R85, R87). -/

namespace Sys2Proof

/-- The row of a command accepts the command's `OSC` and reads its operands back from its `ARG` (R85, R87). -/
theorem Instr.withOperands_arg (i : Instr) :
    ∃ j, i.mnemonic.format.oscOperand i.oscSelect = some j ∧ i.mnemonic.withOperands j i.arg = i := by
  cases i with
  | oscSetWaveform j _ | oscSetFreq j _ | oscSetDetune j _ | oscSetModdepth j _ | oscTick j | oscReadLevel j =>
    exact ⟨j, OscId.ofSelect_select j, rfl⟩
  | nop | noteOn | noteOff | render | status => exact ⟨.lfo, rfl, rfl⟩
  | setPot paramId raw =>
    exact ⟨.lfo, rfl, congrArg₂ _ BitVec.extractLsb'_append_eq_left BitVec.extractLsb'_append_eq_right⟩
  | midiByte b => exact ⟨.lfo, rfl, congrArg _ BitVec.extractLsb'_append_eq_right⟩
  | midiPacket b0 b1 b2 =>
    refine ⟨.lfo, rfl, ?_⟩
    simp only [Instr.mnemonic, Instr.arg, Mnemonic.withOperands, Instr.midiPacket.injEq]
    refine ⟨?_, ?_, ?_⟩
    · rw [BitVec.extractLsb'_append_eq_of_add_le (by norm_num)]
      exact BitVec.extractLsb'_append_eq_left
    · rw [BitVec.extractLsb'_append_eq_of_add_le (by norm_num),
        BitVec.extractLsb'_append_eq_of_add_le (by norm_num)]
      exact BitVec.extractLsb'_append_eq_left
    · rw [BitVec.extractLsb'_append_eq_of_add_le (by norm_num),
        BitVec.extractLsb'_append_eq_of_add_le (by norm_num)]
      exact BitVec.extractLsb'_append_eq_right

theorem decode_encode (i : Instr) : decode (encode i) = .ok i := by
  obtain ⟨j, ho, hi⟩ := i.withOperands_arg
  have harg := and_mustBeZero_eq_zero_iff.1 (arg_and_mustBeZero i)
  refine decode_eq_ok_iff.2 ⟨i.mnemonic, j, zField_encode i, opcField_encode i, ?_, ?_, ?_⟩
  · rwa [oscField_encode]
  · rwa [argField_encode]
  · rwa [argField_encode]

/-- Settles O3: the fields of the word are those of the command, and its row reads the operands back. -/
theorem decodeOfEncode : Obligations.DecodeOfEncode := by
  unfold Obligations.DecodeOfEncode
  exact decode_encode

/-- A row's command has the `OSC` field it was read from (R84). -/
theorem Mnemonic.oscSelect_withOperands {m : Mnemonic} {osc : BitVec 2} {j : OscId}
    (h : m.format.oscOperand osc = some j) (arg : BitVec 32) : (m.withOperands j arg).oscSelect = osc := by
  cases m with
  | oscSetWaveform | oscSetFreq | oscSetDetune | oscSetModdepth | oscTick | oscReadLevel =>
    exact OscId.select_of_ofSelect h
  | nop | setPot | noteOn | noteOff | render | midiByte | midiPacket | status =>
    rw [Format.oscOperand_of_plain rfl, Option.ite_none_right_eq_some] at h
    exact h.1.symm

/-- Nothing stands in the bits of `ARG` above a bound on it. -/
theorem extractLsb'_eq_zero_of_lt {arg : BitVec 32} {k : Nat} (h : arg.toNat < 2 ^ k) (n : Nat) :
    arg.extractLsb' k n = 0 := by
  apply BitVec.eq_of_toNat_eq
  rw [BitVec.extractLsb'_toNat, Nat.shiftRight_eq_div_pow, Nat.div_eq_of_lt h]
  simp

/-- A row's command has the `ARG` field it was read from, when that fits the row's format (R85, R87). -/
theorem Mnemonic.arg_withOperands {m : Mnemonic} {arg : BitVec 32}
    (h : arg.toNat < 2 ^ m.format.argBits) (j : OscId) : (m.withOperands j arg).arg = arg := by
  cases m with
  | nop | oscTick | oscReadLevel | render | status =>
    exact (toNat_lt_one_iff.1 h).symm
  | oscSetWaveform | oscSetFreq | oscSetDetune | oscSetModdepth | noteOn | noteOff => rfl
  | setPot => exact BitVec.extractLsb'_append_extractLsb' (w := 16) (len := 16)
  | midiByte =>
    have hhigh : arg.extractLsb' 8 24 = 0 := extractLsb'_eq_zero_of_lt h 24
    simp only [Mnemonic.withOperands, Instr.arg, ← hhigh]
    exact BitVec.extractLsb'_append_extractLsb' (w := 24) (len := 8)
  | midiPacket =>
    have hhigh : arg.extractLsb' 24 8 = 0 := extractLsb'_eq_zero_of_lt h 8
    simp only [Mnemonic.withOperands, Instr.arg, ← hhigh]
    rw [BitVec.extractLsb'_append_extractLsb'_eq_extractLsb' (start₂ := 8) (start₁ := 0) rfl,
      BitVec.extractLsb'_append_extractLsb'_eq_extractLsb' (start₂ := 16) (start₁ := 0) rfl]
    exact BitVec.extractLsb'_append_extractLsb' (w := 8) (len := 24)

theorem encode_of_decode {w : CmdWord} {i : Instr} (h : decode w = .ok i) : encode i = w := by
  obtain ⟨m, j, hz, hm, ho, ha, rfl⟩ := decode_eq_ok_iff.1 h
  calc encode (m.withOperands j (argField w))
      = opcField w ++ (oscField w ++ (zField w ++ argField w)) := by
        rw [encode, Mnemonic.mnemonic_withOperands, Mnemonic.oscSelect_withOperands ho,
          Mnemonic.arg_withOperands ha, hz, hm]
    _ = w := word_eq_fields w

/-- Settles O4: the command's fields are those the word was read from, and a word is its fields. -/
theorem encodeOfDecode : Obligations.EncodeOfDecode := by
  unfold Obligations.EncodeOfDecode
  intro w i h
  exact encode_of_decode h

/-- Settles O1: every clause is about literal words, so it is computed. -/
theorem workedEncodings : Obligations.WorkedEncodings := by
  unfold Obligations.WorkedEncodings
  decide

end Sys2Proof
end

section
/-! The opcode map's rows, `match` and `mask` columns, against the decoder's two tables (R86). -/

namespace Sys2Proof

/-- The `OSC` bits a row's mask tests: none where `OSC` selects an oscillator, both elsewhere (R86). -/
def Format.oscMask (f : Format) : BitVec 2 :=
  if f.selectsOsc then 0 else 3

/-- The row of the opcode map, field by field, from the mnemonic's opcode and format (R84 to R86). -/
def Mnemonic.row (m : Mnemonic) : MapRow where
  mnemonic := m
  pattern := m.opcode ++ (0#2 ++ (0#2 ++ 0#32))
  mask := 0xF#4 ++ (m.format.oscMask ++ (3#2 ++ m.format.mustBeZero))
  selectsOsc := m.format.selectsOsc

theorem opcodeMap_eq_map_row : opcodeMap = Mnemonic.all.map Mnemonic.row := by
  decide

theorem Mnemonic.mem_all (m : Mnemonic) : m ∈ Mnemonic.all := by
  cases m <;> decide

/-- The map holds one row for each mnemonic. -/
theorem exists_mem_opcodeMap_iff {m : Mnemonic} {P : MapRow → Prop} :
    (∃ r ∈ opcodeMap, r.mnemonic = m ∧ P r) ↔ P m.row := by
  rw [opcodeMap_eq_map_row]
  constructor
  · rintro ⟨r, hr, rfl, hP⟩
    obtain ⟨n, -, rfl⟩ := List.mem_map.1 hr
    exact hP
  · exact fun hP => ⟨m.row, List.mem_map_of_mem m.mem_all, rfl, hP⟩

/-- A masked word of two parts is compared part by part. -/
theorem append_and_append_eq_append_iff {n k : Nat} {a p c : BitVec n} {b q d : BitVec k} :
    (a ++ b) &&& (p ++ q) = c ++ d ↔ a &&& p = c ∧ b &&& q = d := by
  rw [BitVec.and_append]
  constructor
  · intro h
    have hleft := congrArg (BitVec.extractLsb' k n) h
    have hright := congrArg (BitVec.extractLsb' 0 k) h
    simp only [BitVec.extractLsb'_append_eq_left, BitVec.extractLsb'_append_eq_right] at hleft hright
    exact ⟨hleft, hright⟩
  · rintro ⟨rfl, rfl⟩
    rfl

/-- Check (3) of R88 in the words of the map: the masked `OSC` bits are zero, and a select is not 3 (R86). -/
theorem Format.isSome_oscOperand_iff (f : Format) (osc : BitVec 2) :
    (f.oscOperand osc).isSome = true ↔ osc &&& f.oscMask = 0 ∧ (!f.selectsOsc || osc != 3) = true := by
  revert osc
  cases f <;> decide

/-- The masked comparison of a row, field by field (R84, R86). -/
theorem Mnemonic.and_row_mask_eq_iff {m : Mnemonic} {w : CmdWord} :
    w &&& m.row.mask = m.row.pattern ↔ opcField w = m.opcode ∧
      oscField w &&& m.format.oscMask = 0 ∧ zField w = 0 ∧ argField w &&& m.format.mustBeZero = 0 := by
  have hopc : opcField w &&& 0xF#4 = opcField w := BitVec.and_allOnes
  have hz : zField w &&& 3#2 = zField w := BitVec.and_allOnes
  calc w &&& m.row.mask = m.row.pattern
      ↔ (opcField w ++ (oscField w ++ (zField w ++ argField w))) &&& m.row.mask = m.row.pattern := by
        rw [word_eq_fields]
    _ ↔ opcField w &&& 0xF#4 = m.opcode ∧ (oscField w ++ (zField w ++ argField w)) &&&
          (m.format.oscMask ++ (3#2 ++ m.format.mustBeZero)) = 0#2 ++ (0#2 ++ 0#32) :=
        append_and_append_eq_append_iff
    _ ↔ _ := by
        rw [append_and_append_eq_append_iff, append_and_append_eq_append_iff, hopc, hz]
        rfl

/-- Match and mask are the decoder's checks of the row (R86, R88). -/
theorem Mnemonic.row_accepts_iff {m : Mnemonic} {w : CmdWord} :
    m.row.accepts w = true ↔ zField w = 0 ∧ opcField w = m.opcode ∧
      (m.format.oscOperand (oscField w)).isSome = true ∧ (argField w).toNat < 2 ^ m.format.argBits := by
  rw [MapRow.accepts, Bool.and_eq_true, beq_iff_eq, Mnemonic.and_row_mask_eq_iff, Format.isSome_oscOperand_iff,
    ← and_mustBeZero_eq_zero_iff]
  constructor
  · rintro ⟨⟨hm, hosc, hz, ha⟩, hsel⟩
    exact ⟨hz, hm, ⟨hosc, hsel⟩, ha⟩
  · rintro ⟨hz, hm, ⟨hosc, hsel⟩, ha⟩
    exact ⟨⟨hm, hosc, hz, ha⟩, hsel⟩

/-- Settles O5: a row's match and mask are the decoder's checks of that row. -/
theorem decodeAgreesWithOpcodeMap : Obligations.DecodeAgreesWithOpcodeMap := by
  unfold Obligations.DecodeAgreesWithOpcodeMap
  intro w m
  rw [exists_mem_opcodeMap_iff (P := fun r => r.accepts w = true), Mnemonic.row_accepts_iff]
  constructor
  · rintro ⟨i, hd, rfl⟩
    obtain ⟨m, j, hz, hm, ho, ha, rfl⟩ := decode_eq_ok_iff.1 hd
    rw [Mnemonic.mnemonic_withOperands]
    exact ⟨hz, hm, Option.isSome_iff_exists.2 ⟨j, ho⟩, ha⟩
  · rintro ⟨hz, hm, ho, ha⟩
    obtain ⟨j, ho⟩ := Option.isSome_iff_exists.1 ho
    exact ⟨_, decode_row hz hm ho ha, Mnemonic.mnemonic_withOperands m j _⟩

end Sys2Proof
end

section
/-! The five ordered checks of decoding, opcode number by opcode number (R88). -/

namespace Sys2Proof

/-- A row that `OPC` selects, with what its format says of `OSC` (R84, R86). -/
theorem exists_row_of_selectsOsc {opc : BitVec 4} {b : Bool}
    (h : (Mnemonic.ofOpcode opc).map (·.format.selectsOsc) = some b) :
    ∃ m : Mnemonic, opc = m.opcode ∧ m.format.selectsOsc = b := by
  obtain ⟨m, hm, hf⟩ := Option.map_eq_some_iff.1 h
  exact ⟨m, Mnemonic.ofOpcode_eq_some_iff.1 hm, hf⟩

/-- The opcodes 1 to 6 are the rows whose `OSC` selects an oscillator (R86). -/
theorem selectsOsc_of_mem {opc : BitVec 4} (h : opc.toNat ∈ [1, 2, 3, 4, 5, 6]) :
    (Mnemonic.ofOpcode opc).map (·.format.selectsOsc) = some true := by
  revert opc
  decide

/-- The other opcodes of the map are the rows whose `OSC` must be `00` (R86). -/
theorem not_selectsOsc_of_mem {opc : BitVec 4} (h : opc.toNat ∈ [0, 8, 9, 10, 11, 12, 13, 14]) :
    (Mnemonic.ofOpcode opc).map (·.format.selectsOsc) = some false := by
  revert opc
  decide

/-- The opcodes 7 and 15 select no row (R86). -/
theorem ofOpcode_reserved {opc : BitVec 4} (h : opc.toNat = 7 ∨ opc.toNat = 15) :
    Mnemonic.ofOpcode opc = none := by
  revert opc
  decide

/-- Settles O6: each clause is one check of the decoder (`decode_zNotZero` to `decode_row`) at the clause's opcodes. -/
theorem decodingInOrder : Obligations.DecodingInOrder := by
  unfold Obligations.DecodingInOrder
  intro w opc osc z arg selects plain
  refine ⟨decode_zNotZero, ?reserved, ?oscThree, ?oscNotZero, ?argOfTick, ?argOfNone, ?argOfByte, ?argOfPacket,
    ?selecting, ?plain⟩
  case reserved => exact fun hz h => decode_reservedOpcode hz (ofOpcode_reserved h)
  case oscThree =>
    intro hz hsel hosc
    obtain ⟨m, hm, hf⟩ := exists_row_of_selectsOsc (selectsOsc_of_mem hsel)
    refine decode_oscField hz hm ((Format.oscOperand_of_selects hf).trans ?_)
    rw [show oscField w = 3 from hosc]
    rfl
  case oscNotZero =>
    intro hz hplain hosc
    obtain ⟨m, hm, hf⟩ := exists_row_of_selectsOsc (not_selectsOsc_of_mem hplain)
    exact decode_oscField hz hm ((Format.oscOperand_of_plain hf).trans (if_neg hosc))
  case argOfTick =>
    intro hz _ hosc hopc harg
    obtain ⟨j, ho⟩ := OscId.exists_ofSelect hosc
    have hpos : 1 ≤ arg.toNat := not_lt.1 (mt toNat_lt_one_iff.1 harg)
    rcases hopc with h | h
    · exact decode_argNotZero (m := .oscTick) hz (BitVec.eq_of_toNat_eq h) ho hpos
    · exact decode_argNotZero (m := .oscReadLevel) hz (BitVec.eq_of_toNat_eq h) ho hpos
  case argOfNone =>
    intro hz hosc hopc harg
    have hpos : 1 ≤ arg.toNat := not_lt.1 (mt toNat_lt_one_iff.1 harg)
    rcases hopc with h | h | h
    · exact decode_argNotZero (m := .nop) hz (BitVec.eq_of_toNat_eq h) (if_pos hosc) hpos
    · exact decode_argNotZero (m := .render) hz (BitVec.eq_of_toNat_eq h) (if_pos hosc) hpos
    · exact decode_argNotZero (m := .status) hz (BitVec.eq_of_toNat_eq h) (if_pos hosc) hpos
  case argOfByte =>
    exact fun hz hosc h ha => decode_argNotZero (m := .midiByte) hz (BitVec.eq_of_toNat_eq h) (if_pos hosc) ha
  case argOfPacket =>
    exact fun hz hosc h ha => decode_argNotZero (m := .midiPacket) hz (BitVec.eq_of_toNat_eq h) (if_pos hosc) ha
  case selecting =>
    intro i hz hosc
    have ho : OscId.ofSelect osc = some i := (congrArg _ hosc).trans (OscId.ofSelect_select i)
    have row (m : Mnemonic) (hf : m.format.selectsOsc = true) (hm : opc.toNat = m.opcode.toNat)
        (ha : arg.toNat < 2 ^ m.format.argBits) : decode w = .ok (m.withOperands i arg) :=
      decode_row hz (BitVec.eq_of_toNat_eq hm) ((Format.oscOperand_of_selects hf).trans ho) ha
    exact ⟨(row .oscSetWaveform rfl · arg.isLt), (row .oscSetFreq rfl · arg.isLt),
      (row .oscSetDetune rfl · arg.isLt), (row .oscSetModdepth rfl · arg.isLt),
      fun h ha => row .oscTick rfl h (toNat_lt_one_iff.2 ha),
      fun h ha => row .oscReadLevel rfl h (toNat_lt_one_iff.2 ha)⟩
  case plain =>
    intro hz hosc
    have row (m : Mnemonic) (hf : m.format.selectsOsc = false) (hm : opc.toNat = m.opcode.toNat)
        (ha : arg.toNat < 2 ^ m.format.argBits) : decode w = .ok (m.withOperands .lfo arg) :=
      decode_row hz (BitVec.eq_of_toNat_eq hm) ((Format.oscOperand_of_plain hf).trans (if_pos hosc)) ha
    exact ⟨fun h ha => row .nop rfl h (toNat_lt_one_iff.2 ha), (row .setPot rfl · arg.isLt),
      (row .noteOn rfl · arg.isLt), (row .noteOff rfl · arg.isLt),
      fun h ha => row .render rfl h (toNat_lt_one_iff.2 ha), row .midiByte rfl, row .midiPacket rfl,
      fun h ha => row .status rfl h (toNat_lt_one_iff.2 ha)⟩

end Sys2Proof
end

section
/-! The literal helpers of the assembler (R93). -/

namespace Sys2Proof.Machine

open Sys2Proof.Claims

/-- Scaling a literal rounds to nearest, a tie going up: the floor of `x * scale + 1/2` (R93). -/
theorem isFloor_scaled (scale : Int) {x : DecimalLit} (h : 0 < x.den) :
    IsFloor (scaled scale x) (2 * x.num * scale + (x.den : Int)) (2 * (x.den : Int)) := by
  rw [scaled, rhu, ← mul_assoc]
  exact isFloor_fdiv _ (by omega)

/-- Settles O2: `isFloor_scaled` at the three scales; the rule's examples are computed. -/
theorem literalsRoundToNearest : Obligations.LiteralsRoundToNearest := by
  unfold Obligations.LiteralsRoundToNearest
  exact ⟨fun _ h => ⟨isFloor_scaled 8192 h, isFloor_scaled 65536 h, isFloor_scaled 128 h⟩, rfl, rfl, rfl, rfl⟩

end Sys2Proof.Machine
end

section
/-! The steps that run no command, and that there is always a next state (R90, R220). -/

namespace Sys2Proof.Machine

/-- An illegal word at the front of the port raises `IllegalCommand` (R90). -/
theorem step_illegal {s : State} {w : CmdWord} {rest : List HostInput} {e : IllegalWord}
    (h : s.cmdPort = .cmd w :: rest) (hd : decode w = .error e) :
    step s = .next (raise .illegalCommand (accept rest s)) := by
  simp [step, h, hd]

/-- Settles O8: `raise` writes its flag and `accept` the port and the strobes. -/
theorem illegalWordSetsOnlyItsFlag : Obligations.IllegalWordSetsOnlyItsFlag := by
  unfold Obligations.IllegalWordSetsOnlyItsFlag
  intro s w rest e h hd
  exact ⟨_, step_illegal h hd, rfl, rfl, rfl, rfl, rfl, rfl, rfl, rfl⟩

/-- Nothing presented: the block waits (R81). -/
theorem step_nil {s : State} (h : s.cmdPort = []) : step s = .next (idle s) := by
  simp [step, h]

/-- Settles O9: `idle` lowers the strobes alone. -/
theorem emptyPortWaits : Obligations.EmptyPortWaits := by
  unfold Obligations.EmptyPortWaits
  intro s h
  exact step_nil h

/-- Settles O13: `step_next_cfg` and `exec_next_frame` name the next state. -/
theorem everyStepAnswersNext : Obligations.EveryStepAnswersNext := by
  unfold Obligations.EveryStepAnswersNext
  refine ⟨fun s => ?_, fun i s => ?_⟩
  · obtain ⟨t, ht, -⟩ := step_next_cfg s
    exact ⟨t, ht⟩
  · obtain ⟨t, ht, -⟩ := exec_next_frame i s
    exact ⟨t, ht⟩

end Sys2Proof.Machine
end

section
/-! What each command answers on the two output ports (R82, R83). -/

namespace Sys2Proof.Machine

/-- What a command puts on the ports when their strobes were low before it. -/
inductive PortAnswer : Instr → Output → Prop
  | readLevel (j : OscId) (v : PortWord) : PortAnswer (.oscReadLevel j) (.rsp v)
  | status (v : PortWord) : PortAnswer .status (.rsp v)
  | render (x : PortWord) (last : Bool) : PortAnswer .render (.aud x x last)
  | quiet {i : Instr} : (∀ j, i ≠ .oscReadLevel j) → i ≠ .status → i ≠ .render → PortAnswer i .none

/-- Three commands answer; the others do not write `out` (`exec_footprint`). -/
theorem exec_portAnswer {i : Instr} {s t : State} (hs : s.out = .none) (he : exec i s = .next t) :
    PortAnswer i t.out := by
  cases i with
  | oscReadLevel j =>
    obtain rfl := Host.Outcome.next.inj he
    exact .readLevel j _
  | status =>
    obtain rfl := Host.Outcome.next.inj he
    exact .status _
  | render =>
    obtain rfl := Host.Outcome.next.inj he
    exact .render _ _
  | _ =>
    have ht : t.out = .none := by_contra fun hne => by simpa using (exec_footprint he).out.writers (hs ▸ hne)
    rw [ht]
    exact .quiet nofun nofun nofun

/-- Settles O55: `exec_portAnswer` for a legal word; an illegal one answers nothing. -/
theorem portsAnswerOnlyTheirCommands : Obligations.PortsAnswerOnlyTheirCommands := by
  unfold Obligations.PortsAnswerOnlyTheirCommands
  intro s t w rest h hst
  cases hd : decode w with
  | error e =>
    obtain rfl := Host.Outcome.next.inj ((step_illegal h hd).symm.trans hst)
    simp
  | ok i =>
    have hanswer := exec_portAnswer (accept_out rest s) ((step_cmd h hd).symm.trans hst)
    generalize t.out = o at hanswer
    cases hanswer with
    | readLevel j v => simp
    | status v => simp
    | render x last => simp
    | quiet hread hstatus hrender => simp [hread, hstatus, hrender]

end Sys2Proof.Machine
end

section
/-! Frames in a row: what a run of `RENDER` words does to the voice and emits (R160, R165, R166). -/

namespace Sys2Proof.Machine

section runs
variable {s t : State} (h : step s = .next t) (n : Nat)
include h

theorem runSteps_succ_of_step : runSteps (n + 1) s = runSteps n t := by
  rw [runSteps, h]

theorem emitted_succ_of_step : emitted (n + 1) s = t.out :: emitted n t := by
  rw [emitted, h]

end runs

/-- What one frame does beside its sample: it latches at a buffer start, counts, and says whether it is the last
(R160, R165, R166). -/
structure FrameStep (s t : State) : Prop where
  cfg : t.cfg = s.cfg
  pend : t.voice.pend = s.voice.pend
  act : t.voice.act = if s.voice.frameCtr = 0 then s.voice.pend else s.voice.act
  frameCtr : t.voice.frameCtr.toNat = (s.voice.frameCtr.toNat + 1) % s.cfg.bufFrames
  out : ∃ x, t.out = .aud x x (decide (s.voice.frameCtr.toNat + 1 = s.cfg.bufFrames))

/-- In a valid configuration the counter of R166 fits its register. -/
theorem countFrame_toNat {s : State} (hc : s.cfg.Valid) :
    (countFrame s).voice.frameCtr.toNat = (s.voice.frameCtr.toNat + 1) % s.cfg.bufFrames := by
  have hlt := Nat.mod_lt (s.voice.frameCtr.toNat + 1) hc.bufFrames_pos
  have hle := hc.bufFrames_le
  rw [countFrame_frameCtr, BitVec.toNat_ofNat, Nat.mod_eq_of_lt]
  omega

/-- The last frame of a buffer is the one at `BUF_FRAMES - 1` (R165). -/
theorem isLastFrame_eq (s : State) : isLastFrame s = decide (s.voice.frameCtr.toNat + 1 = s.cfg.bufFrames) := by
  rw [isLastFrame, decide_eq_decide]
  omega

theorem execRender_frameStep {s : State} (hc : s.cfg.Valid) :
    ∃ t, execRender s = .next t ∧ t.cmdPort = s.cmdPort ∧ FrameStep s t := by
  have hcl : (sample (latchAtBufferStart s)).1.cfg.Valid := by simpa using hc
  refine ⟨_, rfl, by simp, { cfg := by simp, pend := by simp, act := by simp, frameCtr := ?frameCtr, out := ?out }⟩
  case frameCtr =>
    rw [emitAud_voice, countFrame_toNat hcl]
    simp
  case out =>
    rw [emitAud_out, isLastFrame_eq]
    exact ⟨_, by rw [sample_voice, sample_cfg, latchAtBufferStart_frameCtr, latchAtBufferStart_cfg]⟩

/-- A `RENDER` word at the front of the port is one frame (R81, R159). -/
theorem step_render {s : State} {rest : List HostInput} (hc : s.cfg.Valid)
    (h : s.cmdPort = .cmd (encode .render) :: rest) :
    ∃ t, step s = .next t ∧ t.cmdPort = rest ∧ FrameStep s t := by
  obtain ⟨t, ht, hport, hframe⟩ := execRender_frameStep (s := accept rest s) hc
  obtain ⟨hcfg, hpend, hact, hctr, hout⟩ := hframe
  exact ⟨t, (step_cmd h (decode_encode .render)).trans ht, hport, hcfg, hpend, hact, hctr, hout⟩

/-- `n` frames in a row: the counter moves by `n`, the `k`-th frame says whether it completes a buffer, and if the
pending controls are the active ones, or a buffer starts, they are the active ones in the end. -/
theorem runSteps_renders (n : Nat) {s : State} (hc : s.cfg.Valid) (hlt : s.voice.frameCtr.toNat < s.cfg.bufFrames)
    (hport : s.cmdPort = List.replicate n (.cmd (encode .render))) :
    ∃ t, runSteps n s = .next t ∧ t.cmdPort = [] ∧ t.voice.pend = s.voice.pend ∧
      t.voice.frameCtr.toNat = (s.voice.frameCtr.toNat + n) % s.cfg.bufFrames ∧
      (s.voice.act = s.voice.pend ∨ (s.voice.frameCtr = 0 ∧ 0 < n) → t.voice.act = s.voice.pend) ∧
      (emitted n s).length = n ∧
      ∀ (k : Nat) (o : Output), (emitted n s)[k]? = some o → ∃ x, o =
        .aud x x (decide ((s.voice.frameCtr.toNat + k) % s.cfg.bufFrames + 1 = s.cfg.bufFrames)) := by
  induction n generalizing s with
  | zero =>
    exact ⟨s, rfl, hport, rfl, (Nat.mod_eq_of_lt hlt).symm, fun h => h.resolve_right nofun, rfl, nofun⟩
  | succ n ih =>
    obtain ⟨u, hu, huport, hcfg, hpend, hact, hctr, x, hout⟩ := step_render hc hport
    have hult : u.voice.frameCtr.toNat < u.cfg.bufFrames := by
      rw [hctr, hcfg]
      exact Nat.mod_lt _ hc.bufFrames_pos
    obtain ⟨t, ht, htport, htpend, htctr, htact, hlen, hframes⟩ := ih (hcfg ▸ hc) hult huport
    rw [runSteps_succ_of_step hu, emitted_succ_of_step hu]
    refine ⟨t, ht, htport, htpend.trans hpend, ?_, fun hs => ?_, congrArg (· + 1) hlen, fun k o ho => ?_⟩
    · rw [htctr, hctr, hcfg, Nat.mod_add_mod, add_assoc, add_comm 1]
    · have hlatched : u.voice.act = u.voice.pend := by
        rw [hact, hpend]
        rcases hs with hs | ⟨hs, -⟩
        · rw [hs, ite_self]
        · exact if_pos hs
      exact (htact (.inl hlatched)).trans hpend
    · cases k with
      | zero =>
        obtain rfl : u.out = o := Option.some.inj ho
        exact ⟨x, by rw [hout, add_zero, Nat.mod_eq_of_lt hlt]⟩
      | succ k =>
        obtain ⟨y, hy⟩ := hframes k o ho
        exact ⟨y, by rw [hy, hctr, hcfg, Nat.mod_add_mod, add_assoc, add_comm 1]⟩

/-- Settles O45: `BUF_FRAMES` frames from the counter 0, where the first latches and the counter comes round to 0. -/
theorem renderBufferIsOneBuffer : Obligations.RenderBufferIsOneBuffer := by
  unfold Obligations.RenderBufferIsOneBuffer
  intro s hc hctr hport
  have hzero : s.voice.frameCtr.toNat = 0 := by rw [hctr]; rfl
  obtain ⟨t, ht, htport, hpend, htctr, hact, hlen, hframes⟩ := runSteps_renders s.cfg.bufFrames hc
    (hzero ▸ hc.bufFrames_pos) (hport.trans List.map_replicate)
  rw [hzero, zero_add, Nat.mod_self] at htctr
  refine ⟨t, ht, htport, BitVec.eq_of_toNat_eq htctr, hact (.inr ⟨hctr, hc.bufFrames_pos⟩), hpend, hlen,
    fun k o ho => ?_⟩
  obtain ⟨hk, -⟩ := List.getElem?_eq_some_iff.1 ho
  obtain ⟨x, hx⟩ := hframes k o ho
  rw [hzero, zero_add, Nat.mod_eq_of_lt (hlen ▸ hk)] at hx
  exact ⟨x, hx⟩

end Sys2Proof.Machine
end

section
/-! The bounds of the lookup and its values at phase 0 (R106), and the checks of the sine table (R108). -/

namespace Sys2Proof.Machine

/-- At phase 0 the quotient every scaled shape takes is 0, whatever the period (R102, R104, R105). -/
theorem fdiv_zero_mul (k period : Int) : fdiv (0 * k) period = 0 := by
  rw [fdiv, zero_mul, Int.zero_ediv]

/-- The sine starts at its table's first entry (R102, R107). -/
theorem sineLevel_zero (period : Int) : sineLevel 0 period = 0 := by
  rw [sineLevel, fdiv_zero_mul]
  rfl

theorem squareLevel_zero {period : Int} (hp : 0 < period) : squareLevel 0 period = 65536 :=
  if_pos (by rwa [mul_zero])

theorem sawtoothLevel_zero (period : Int) : sawtoothLevel 0 period = -65536 := by
  rw [sawtoothLevel, fdiv_zero_mul, zero_sub]

theorem triangleLevel_zero {period : Int} (hp : 0 < period) : triangleLevel 0 period = -65536 := by
  rw [triangleLevel_of_firstHalf (by rwa [mul_zero]), fdiv_zero_mul, zero_sub]

/-- Settles O30: `waveLookup_range`, and each shape's value at phase 0. -/
theorem waveLookupBounds : Obligations.WaveLookupBounds := by
  unfold Obligations.WaveLookupBounds
  intro w phase period hp h0 h1
  obtain ⟨hlo, hhi⟩ := waveLookup_range w h0 h1
  exact ⟨hlo, hhi, sineLevel_zero period, squareLevel_zero hp, sawtoothLevel_zero period, triangleLevel_zero hp⟩

/-- Settles O32: the table is finite, and each check is an exact test on its entries. -/
theorem sineTablePassesItsChecks : Obligations.SineTablePassesItsChecks := by
  unfold Obligations.SineTablePassesItsChecks
  refine ⟨sineRom_length, ?secondHalfNegates, ?mirroredAtNinety, ?firstQuarterSum, ?magnitudeSum, ?sum, ?weightedSum,
    ?largest, ?smallest⟩
  case secondHalfNegates => decide +kernel
  case mirroredAtNinety => decide +kernel
  case firstQuarterSum => decide +kernel
  case magnitudeSum => decide +kernel
  case sum => decide +kernel
  case weightedSum => decide +kernel
  case largest => decide +kernel
  case smallest => decide +kernel

end Sys2Proof.Machine
end

section
/-! What the oscillator commands leave alone, and what they store: a setter writes one register whole or rejects its
operand, and a read answers the level (R124 to R127, R131). -/

namespace Sys2Proof.Machine

open Sys2Proof.Claims

theorem State.setOsc_get_self (s : State) (i : OscId) (o : Osc) : (s.setOsc i o).osc.get i = o :=
  OscFile.get_set_self s.osc i o

/-- Writing oscillator `i` leaves everything outside it alone (R22). -/
theorem onlyOsc_setOsc (i : OscId) (o : Osc) (s : State) : OnlyOsc i s (s.setOsc i o) :=
  ⟨fun _ hj => OscFile.get_set_of_ne s.osc o hj, rfl, rfl, rfl, rfl, rfl, rfl⟩

/-- A contract violation sets its flag and writes nothing else (R212). -/
theorem onlyContractFlag_raise (s : State) : OnlyContractFlag s (raise .contractViolation s) :=
  ⟨rfl, rfl, rfl, rfl, rfl, rfl, rfl, rfl⟩

/-- The 2-bit code of a shape names the shape with that number (R23). -/
theorem waveNumber_waveformOfCode (c : BitVec 2) : waveNumber (waveformOfCode c) = c.toNat := by
  revert c
  decide

/-- A waveform operand inside its domain keeps its value in the 2 bits of `wave` (R23, R124). -/
theorem waveCode_toNat {w : BitVec 32} (h : w.toNat ≤ 3) : (w.extractLsb' 0 2).toNat = w.toNat := by
  rw [BitVec.extractLsb'_toNat, Nat.shiftRight_zero]
  exact Nat.mod_eq_of_lt (by omega)

/-- A positive operand keeps its value in the 31 bits of `base` (R24, R125). -/
theorem freqReg_toNat_of_pos {hz : BitVec 32} (h : 0 < hz.toInt) : ((freqReg hz.toInt).toNat : Int) = hz.toInt :=
  ofInt_toNat_of_range h.le BitVec.toInt_lt

/-- Settles O18: `execOscSetWaveform_cases`, where the accepted code names the shape of the operand's number. -/
theorem setWaveformWritesOrRejects : Obligations.SetWaveformWritesOrRejects := by
  unfold Obligations.SetWaveformWritesOrRejects
  intro i w s
  rcases execOscSetWaveform_cases i w s with ⟨hw, h⟩ | ⟨hw, h⟩ <;> rw [waveInDomain_iff] at hw
  · refine ⟨_, h, fun _ => ⟨?_, by simp, onlyOsc_setOsc i _ s⟩, fun hgt => absurd hw (not_le.2 hgt)⟩
    rw [State.setOsc_get_self, waveNumber_waveformOfCode, waveCode_toNat hw]
  · exact ⟨_, h, fun hle => absurd hle hw, fun _ => onlyContractFlag_raise s⟩

/-- Settles O19: `execOscSetFreq_cases`; a positive operand fits the register. -/
theorem setFreqWritesPositiveOnly : Obligations.SetFreqWritesPositiveOnly := by
  unfold Obligations.SetFreqWritesPositiveOnly
  intro i hz s
  rcases execOscSetFreq_cases i hz s with ⟨hpos, h⟩ | ⟨hneg, h⟩
  · refine ⟨_, h, fun _ => ⟨?_, by simp, onlyOsc_setOsc i _ s⟩, fun hle => absurd hpos (not_lt.2 hle)⟩
    rw [State.setOsc_get_self, freqReg_toNat_of_pos hpos]
  · exact ⟨s, h, fun hpos => absurd hneg (not_le.2 hpos), fun _ => rfl⟩

/-- Settles O20: `execOscSetDetune_cases`; an accepted code keeps its value. -/
theorem setDetuneWritesOrRejects : Obligations.SetDetuneWritesOrRejects := by
  unfold Obligations.SetDetuneWritesOrRejects
  intro i d s
  rcases execOscSetDetune_cases i d s with ⟨hd, h⟩ | ⟨hd, h⟩ <;> rw [detuneInDomain_iff] at hd
  · obtain ⟨hge, hle⟩ := hd
    refine ⟨_, h, fun _ => ⟨?_, by simp, onlyOsc_setOsc i _ s⟩, by omega⟩
    rw [State.setOsc_get_self, detuneCode_toInt hge hle]
  · exact ⟨_, h, fun hin => absurd hin hd, fun _ => onlyContractFlag_raise s⟩

/-- Settles O21: `execOscSetModdepth_cases`; an accepted depth keeps its value. -/
theorem setModdepthWritesOrRejects : Obligations.SetModdepthWritesOrRejects := by
  unfold Obligations.SetModdepthWritesOrRejects
  intro i x s
  rcases execOscSetModdepth_cases i x s with ⟨hx, h⟩ | ⟨hx, h⟩ <;> rw [depthInDomain_iff] at hx
  · refine ⟨_, h, fun _ => ⟨?_, by simp, onlyOsc_setOsc i _ s⟩, fun hgt => absurd hx (not_le.2 hgt)⟩
    rw [State.setOsc_get_self, depthCode_toNat hx]
  · exact ⟨_, h, fun hle => absurd hle hx, fun _ => onlyContractFlag_raise s⟩

/-- Settles O29: the command emits the sign extension, which keeps the number. -/
theorem readLevelAnswersLevel : Obligations.ReadLevelAnswersLevel := by
  unfold Obligations.ReadLevelAnswersLevel
  intro i s
  exact ⟨_, _, rfl, emitRsp_out _ s, BitVec.toInt_signExtend_of_le (by norm_num), rfl, rfl, rfl, rfl, rfl, rfl⟩

end Sys2Proof.Machine
end

section
/-! The effective frequency: base times a detune table entry, rounded (R123). -/

namespace Sys2Proof.Machine

open Sys2Proof.Claims

/-- For a legal detune the product of R123 lies between the base times the smallest and the largest table entry. -/
theorem base_mul_detune_range {o : Osc} (h0 : -128 ≤ o.det.toInt) (h1 : o.det.toInt ≤ 128) :
    (o.base.toNat : Int) * 61858 ≤ o.base.toNat * romRead .detune (o.det.toInt + 128) ∧
    (o.base.toNat : Int) * romRead .detune (o.det.toInt + 128) ≤ o.base.toNat * 69433 := by
  obtain ⟨hlo, hhi⟩ := romRead_detune_range (k := o.det.toInt + 128) (by omega) (by omega)
  have hbase : (0 : Int) ≤ o.base.toNat := Int.natCast_nonneg _
  exact ⟨mul_le_mul_of_nonneg_left hlo hbase, mul_le_mul_of_nonneg_left hhi hbase⟩

/-- R123's rounding is the floor of the product plus a half. -/
theorem effFreq_isFloor (o : Osc) :
    IsFloor (effFreq o) ((o.base.toNat : Int) * romRead .detune (o.det.toInt + 128) + 32768) 65536 :=
  isFloor_fdiv _ (by norm_num)

/-- The entry of detune 0 is 1.0, and a whole number is not moved by rounding (R123). -/
theorem effFreq_of_det_zero {o : Osc} (h : o.det = 0) : effFreq o = o.base.toNat := by
  have hentry : romRead .detune (o.det.toInt + 128) = 65536 := by rw [h]; rfl
  obtain ⟨hle, hlt⟩ := effFreq_isFloor o
  rw [hentry] at hle hlt
  omega

/-- Settles O22: the bounds are the product's (`base_mul_detune_range`) after rounding; a base of 1 or more already
rounds to at least 1. -/
theorem effectiveFrequency : Obligations.EffectiveFrequency := by
  unfold Obligations.EffectiveFrequency
  refine ⟨fun o h0 h1 => ?_, rfl, rfl⟩
  have hindex : o.det.toInt + 128 < (romContents .detune).length := by rw [detuneRom_length]; omega
  obtain ⟨hentryLo, hentryHi⟩ := romRead_detune_range (k := o.det.toInt + 128) (by omega) (by omega)
  obtain ⟨hlo, hhi⟩ := base_mul_detune_range h0 h1
  obtain ⟨hle, hlt⟩ := effFreq_isFloor o
  have hbase := o.base.isLt
  have hzero : o.base = 0 ↔ o.base.toNat = 0 := BitVec.toNat_inj.symm
  refine ⟨⟨_, romContents_getElem? .detune (by omega) hindex, hentryLo, hentryHi, by omega, effFreq_isFloor o⟩,
    by omega, by omega, ?_, effFreq_of_det_zero⟩
  rw [hzero]
  omega

end Sys2Proof.Machine
end

section
/-! One tick, and many ticks at a constant frequency (R129, R130, R132). -/

namespace Sys2Proof.Machine

open Sys2Proof.Claims

/-- At or past the end of the period the phase wraps to 0 (R130). -/
theorem nextPhase_of_le {p P : Int} (h : P ≤ p + 1) : nextPhase p P = 0 := if_pos h

/-- Before the end of the period the phase moves by one (R130). -/
theorem nextPhase_of_lt {p P : Int} (h : p + 1 < P) : nextPhase p P = p + 1 := if_neg (not_le.2 h)

/-- Inside the period the next phase is the successor modulo the period (R130, R132). -/
theorem nextPhase_eq_emod {p P : Int} (h0 : 0 ≤ p) (h1 : p < P) : nextPhase p P = (p + 1) % P := by
  rcases (Int.add_one_le_of_lt h1).lt_or_eq with h | h
  · rw [nextPhase_of_lt h, Int.emod_eq_of_lt (by omega) h]
  · rw [nextPhase_of_le h.ge, h, Int.emod_self]

/-- A tick leaves everything outside its oscillator alone (R40). -/
theorem onlyOsc_tick (i : OscId) (s : State) : OnlyOsc i s (tick i s) :=
  ⟨fun _ hj => tick_get_of_ne i s hj, tick_cfg i s, tick_voice i s, tick_midi i s, tick_err i s, tick_cmdPort i s,
    tick_out i s⟩

/-- Of its own oscillator a tick writes the phase and the level (R133). -/
theorem tick_get_self (i : OscId) (s : State) : (tick i s).osc.get i =
    { s.osc.get i with phase := ((tick i s).osc.get i).phase, level := ((tick i s).osc.get i).level } := by
  obtain ⟨hwave, hbase, hdet, hdepth⟩ := tick_params i s i
  dsimp only
  rw [← hwave, ← hbase, ← hdet, ← hdepth]

/-- A tick on a frequency that is not positive, or on a period of zero, holds (R144). -/
theorem tick_of_hold {i : OscId} {s : State} (h : instFreq s i ≤ 0 ∨ period s.cfg (instFreq s i) = 0) :
    tick i s = s := by
  rcases tick_cases i s with ⟨-, ht⟩ | ⟨hf, hp, -⟩
  · exact ht
  · omega

/-- A tick that does not hold moves the phase to the next one and looks the level up there (R129). -/
theorem tick_advances {i : OscId} {s : State} (hc : s.cfg.Valid) (hf : 0 < instFreq s i)
    (hp : 1 ≤ period s.cfg (instFreq s i)) :
    (((tick i s).osc.get i).phase.toNat : Int) =
      nextPhase (s.osc.get i).phase.toNat (period s.cfg (instFreq s i)) ∧
    ((tick i s).osc.get i).level.toInt = waveLookup (s.osc.get i).wave
      ((tick i s).osc.get i).phase.toNat (period s.cfg (instFreq s i)) := by
  rcases tick_cases i s with ⟨hhold, -⟩ | ⟨-, -, ht⟩
  · omega
  · have hlt := period_lt s.cfg hf hc
    obtain ⟨hphase, hlevel⟩ := advance_spec (s.osc.get i) hp (by omega)
    rw [ht, State.setOsc_get_self]
    exact ⟨hphase, hlevel.trans (by rw [← hphase]; rfl)⟩

/-- Settles O26: `tick_of_hold`, and `tick_advances` with the two cases of the next phase. -/
theorem tickAdvances : Obligations.TickAdvances := by
  unfold Obligations.TickAdvances
  intro i s hc f p o
  refine ⟨fun hf => congrArg _ (tick_of_hold (.inl hf)), fun _ hp => congrArg _ (tick_of_hold (.inr hp)),
    fun hf hp => ?_⟩
  have hp1 : 1 ≤ p := Int.add_one_le_of_lt ((period_nonneg s.cfg hf).lt_of_ne' hp)
  obtain ⟨hphase, hlevel⟩ := tick_advances hc hf hp1
  obtain ⟨hnext0, hnextlt⟩ := nextPhase_range (Int.natCast_nonneg o.phase.toNat) hp1
  have hin : (((tick i s).osc.get i).phase.toNat : Int) < p := hphase.trans_lt hnextlt
  obtain ⟨hlo, hhi⟩ := waveLookup_range o.wave (Int.natCast_nonneg ((tick i s).osc.get i).phase.toNat) hin
  refine ⟨tick i s, rfl, fun hwrap => ?_, fun hstep => ?_, hlevel, tick_get_self i s, onlyOsc_tick i s, hp1, hin,
    hlevel ▸ hlo, hlevel ▸ hhi⟩
  · rw [nextPhase_of_le hwrap] at hphase
    exact BitVec.eq_of_toNat_eq (Int.ofNat_inj.1 hphase)
  · rw [nextPhase_of_lt hstep] at hphase
    exact_mod_cast hphase

theorem onlyOsc_refl (i : OscId) (s : State) : OnlyOsc i s s := ⟨fun _ _ => rfl, rfl, rfl, rfl, rfl, rfl, rfl⟩

/-- Two changes to oscillator `i` alone are one. -/
theorem onlyOsc_trans {i : OscId} {s t u : State} (h : OnlyOsc i s t) (h' : OnlyOsc i t u) : OnlyOsc i s u := by
  obtain ⟨hosc, hcfg, hvoice, hmidi, herr, hport, hout⟩ := h
  obtain ⟨hosc', hcfg', hvoice', hmidi', herr', hport', hout'⟩ := h'
  exact ⟨fun j hj => (hosc' j hj).trans (hosc j hj), hcfg'.trans hcfg, hvoice'.trans hvoice, hmidi'.trans hmidi,
    herr'.trans herr, hport'.trans hport, hout'.trans hout⟩

/-- The phase and the level of an oscillator that does not modulate itself are not in its own frequency (R142). -/
theorem instFreq_eq_of_onlyOsc {i : OscId} {s t : State} (hr : routeOf s.cfg i ≠ some i) (h : OnlyOsc i s t)
    (ho : t.osc.get i = { s.osc.get i with phase := (t.osc.get i).phase, level := (t.osc.get i).level }) :
    instFreq t i = instFreq s i := by
  obtain ⟨hosc, hcfg, -⟩ := h
  have heff : effFreq (t.osc.get i) = effFreq (s.osc.get i) := by rw [ho]; rfl
  have hdepth : (t.osc.get i).depthVal = (s.osc.get i).depthVal := by rw [ho]; rfl
  unfold instFreq
  rw [hcfg]
  cases hj : routeOf s.cfg i with
  | none => exact heff
  | some j =>
    have hne : j ≠ i := fun hji => hr (hji ▸ hj)
    simp only [heff, hdepth, hosc j hne]

/-- `n` executions of `OSC_TICK` are `n` ticks (R128). -/
theorem execTimes_oscTick (i : OscId) (n : Nat) (s : State) :
    execTimes (.oscTick i) n s = .next ((tick i)^[n] s) := by
  induction n generalizing s with
  | zero => rfl
  | succ n ih => exact ih (tick i s)

/-- Any number of ticks writes only the phase and the level of its oscillator (R40, R133). -/
theorem iterate_tick_frame (i : OscId) (n : Nat) (s : State) :
    OnlyOsc i s ((tick i)^[n] s) ∧ ((tick i)^[n] s).osc.get i = { s.osc.get i with
      phase := (((tick i)^[n] s).osc.get i).phase, level := (((tick i)^[n] s).osc.get i).level } := by
  induction n with
  | zero => exact ⟨onlyOsc_refl i s, rfl⟩
  | succ n ih =>
    obtain ⟨honly, hosc⟩ := ih
    rw [Function.iterate_succ_apply']
    exact ⟨onlyOsc_trans honly (onlyOsc_tick i _), (tick_get_self i _).trans (by rw [hosc])⟩

section constantFrequency
variable {i : OscId} {s : State} (hc : s.cfg.Valid) (hr : routeOf s.cfg i ≠ some i) (hf : 0 < instFreq s i)
  (hp : 1 ≤ period s.cfg (instFreq s i))
include hc hr hf hp

/-- Every tick of the run is at the frequency of its start, so it advances by the same period (R129). -/
theorem iterate_tick_succ_advances (n : Nat) :
    ((((tick i)^[n + 1] s).osc.get i).phase.toNat : Int) =
      nextPhase (((tick i)^[n] s).osc.get i).phase.toNat (period s.cfg (instFreq s i)) ∧
    (((tick i)^[n + 1] s).osc.get i).level.toInt = waveLookup (s.osc.get i).wave
      (((tick i)^[n + 1] s).osc.get i).phase.toNat (period s.cfg (instFreq s i)) := by
  obtain ⟨honly, hosc⟩ := iterate_tick_frame i n s
  have ⟨_, hcfg, _⟩ := honly
  have hfreq : instFreq ((tick i)^[n] s) i = instFreq s i := instFreq_eq_of_onlyOsc hr honly hosc
  have hwave : (((tick i)^[n] s).osc.get i).wave = (s.osc.get i).wave := by rw [hosc]
  have hstep := tick_advances (i := i) (hcfg.symm ▸ hc) (hfreq.symm ▸ hf) (by rwa [hcfg, hfreq])
  rwa [← Function.iterate_succ_apply' (tick i), hcfg, hfreq, hwave] at hstep

/-- `n` advances from a phase inside the period move it by `n` modulo the period (R132). -/
theorem iterate_tick_phase (h1 : ((s.osc.get i).phase.toNat : Int) < period s.cfg (instFreq s i)) (n : Nat) :
    ((((tick i)^[n] s).osc.get i).phase.toNat : Int) =
      ((s.osc.get i).phase.toNat + n) % period s.cfg (instFreq s i) := by
  induction n with
  | zero => simpa using (Int.emod_eq_of_lt (Int.natCast_nonneg _) h1).symm
  | succ n ih =>
    have hlt := Int.emod_lt_of_pos ((s.osc.get i).phase.toNat + n : Int) hp
    have hstep := (iterate_tick_succ_advances hc hr hf hp n).1
    rw [nextPhase_eq_emod (Int.natCast_nonneg _) (ih ▸ hlt), ih, Int.emod_add_emod] at hstep
    rw [hstep, Nat.cast_succ, add_assoc]

end constantFrequency

/-- Settles O28: the run is `(tick i)^[n]`; `iterate_tick_phase` gives the phase, and the last tick the level. -/
theorem phaseAfterManyTicks : Obligations.PhaseAfterManyTicks := by
  unfold Obligations.PhaseAfterManyTicks
  intro i n s hc hr hf hp h1
  obtain ⟨honly, hosc⟩ := iterate_tick_frame i n s
  refine ⟨_, execTimes_oscTick i n s, iterate_tick_phase hc hr hf hp h1 n, fun hn => ?_, hosc, honly⟩
  cases n with
  | zero => exact absurd hn (lt_irrefl 0)
  | succ n => exact (iterate_tick_succ_advances hc hr hf hp n).2

end Sys2Proof.Machine
end

section
/-! The mixer: the modulation term and its bounds (R142), the period's two thresholds (R143), the hold on a degenerate
frequency (R144), and the carrier's tick after the modulator's (R145). -/

namespace Sys2Proof.Machine

open Sys2Proof.Claims

section route
variable {s : State} {i j : OscId}

/-- An oscillator without a modulator runs at its effective frequency (R142). -/
theorem instFreq_of_unrouted (h : routeOf s.cfg i = none) : instFreq s i = effFreq (s.osc.get i) := by
  simp only [instFreq, h]

/-- A modulator adds its term to the effective frequency (R142). -/
theorem instFreq_of_route (h : routeOf s.cfg i = some j) :
    instFreq s i = effFreq (s.osc.get i) + modTerm (s.osc.get j).levelVal (s.osc.get i).depthVal := by
  simp only [instFreq, h]

end route

/-- The shift by 19 is a floor, also for a negative product (R142). -/
theorem modTerm_isFloor (level depth : Int) : IsFloor (modTerm level depth) (level * depth * 20) 524288 :=
  isFloor_fdiv _ (by norm_num)

/-- No level, or no depth, modulates nothing (R142). -/
theorem modTerm_of_zero {level depth : Int} (h : depth = 0 ∨ level = 0) : modTerm level depth = 0 := by
  rcases h with rfl | rfl
  · rw [modTerm, mul_zero]; rfl
  · rw [modTerm, zero_mul]; rfl

/-- The product of a level and a depth in their formats is at most `2^32` in size (R142). -/
theorem abs_level_mul_depth_le {o m : Osc} (ho : OscLegal o) (hm : OscLegal m) :
    |m.level.toInt * (o.depth.toNat : Int)| ≤ 2 ^ 32 := by
  have hlevel : |m.level.toInt| ≤ 65536 := abs_le.2 ⟨hm.level_ge, hm.level_le⟩
  have hdepth : |(o.depth.toNat : Int)| ≤ 65536 := by
    rw [Nat.abs_cast]
    exact_mod_cast ho.depth_le
  calc |m.level.toInt * (o.depth.toNat : Int)| = |m.level.toInt| * |(o.depth.toNat : Int)| := abs_mul _ _
    _ ≤ 65536 * 65536 := mul_le_mul hlevel hdepth (abs_nonneg _) (by norm_num)
    _ = 2 ^ 32 := by norm_num

/-- The modulation term of a legal level and a legal depth is at most 20 Hz in FREQ format (R142). -/
theorem modTerm_range {o m : Osc} (ho : OscLegal o) (hm : OscLegal m) :
    -163840 ≤ modTerm m.levelVal o.depthVal ∧ modTerm m.levelVal o.depthVal ≤ 163840 := by
  obtain ⟨hlo, hhi⟩ := abs_le.1 (abs_level_mul_depth_le ho hm)
  obtain ⟨hle, hlt⟩ := modTerm_isFloor m.levelVal o.depthVal
  unfold Osc.levelVal Osc.depthVal at hle hlt ⊢
  omega

/-- A legal oscillator's effective frequency is not negative and at most the largest one of R123. -/
theorem effFreq_range {o : Osc} (h : OscLegal o) : 0 ≤ effFreq o ∧ effFreq o ≤ 2275180543 := by
  obtain ⟨-, hlo, hhi, -⟩ := effectiveFrequency.1 o h.det_ge h.det_le
  exact ⟨hlo, hhi⟩

/-- The bounds of R142, with and without a modulator. -/
theorem instFreq_range {s : State} (hs : StateLegal s) (i : OscId) :
    -163840 ≤ instFreq s i ∧ instFreq s i ≤ 2275344383 := by
  obtain ⟨hlo, hhi⟩ := effFreq_range (hs.osc i)
  cases hr : routeOf s.cfg i with
  | none =>
    rw [instFreq_of_unrouted hr]
    omega
  | some j =>
    obtain ⟨htlo, hthi⟩ := modTerm_range (hs.osc i) (hs.osc j)
    rw [instFreq_of_route hr]
    omega

/-- Settles O23: `instFreq_of_unrouted` and `instFreq_of_route`, where the term added is the floor `modTerm`. -/
theorem instantaneousFrequency : Obligations.InstantaneousFrequency := by
  unfold Obligations.InstantaneousFrequency
  intro s i hs
  refine ⟨instFreq_of_unrouted, fun j hr => ?_, instFreq_range hs i⟩
  obtain ⟨hlo, hhi⟩ := abs_le.1 (abs_level_mul_depth_le (hs.osc i) (hs.osc j))
  obtain ⟨htlo, hthi⟩ := modTerm_range (hs.osc i) (hs.osc j)
  refine ⟨by omega, by omega, _, modTerm_isFloor _ _, instFreq_of_route hr, htlo, hthi, fun hzero => ?_⟩
  exact modTerm_of_zero (hzero.imp (fun hd => by rw [hd]; rfl) (fun hl => by rw [hl]; rfl))

/-- Settles O24: the edges of the periods 0 and 1 are `lt_period_iff` at 0 and 1. -/
theorem periodOfFrequency : Obligations.PeriodOfFrequency := by
  unfold Obligations.PeriodOfFrequency
  refine ⟨?_, rfl, rfl, rfl, rfl, rfl, rfl⟩
  intro c f hc hf n
  have hn : n < 2 ^ 31 := by
    have := hc.sampleRate_le
    omega
  have hnonneg : 0 ≤ period c f := period_nonneg c hf
  have hpos : 0 < period c f ↔ 2 * 0 * f + f ≤ 2 * n := lt_period_iff c 0 hf
  have hgt1 : 1 < period c f ↔ 2 * 1 * f + f ≤ 2 * n := lt_period_iff c 1 hf
  exact ⟨isFloor_fdiv _ (by omega), period_le c hf hc.sampleRate_pos, hn, by omega, by omega⟩

/-- Settles O25: `tick_of_hold`. -/
theorem degenerateTickHolds : Obligations.DegenerateTickHolds := by
  unfold Obligations.DegenerateTickHolds
  exact fun i s h => congrArg _ (tick_of_hold (h.imp_right And.right))

/-- The carrier's frequency right after the modulator's tick: the carrier's own registers, and the level that tick
left (R141, R145). -/
theorem instFreq_car_tick_mod {s : State} (hr : routeOf s.cfg .car = some .mod) :
    instFreq (tick .mod s) .car =
      effFreq (s.osc.get .car) + modTerm ((tick .mod s).osc.get .mod).levelVal (s.osc.get .car).depthVal := by
  rw [instFreq_of_route (j := .mod) (by rwa [tick_cfg]), tick_get_of_ne .mod s (j := .car) (by decide)]

/-- Settles O27: the carrier's tick holds (`tick_of_hold`) or advances (`tick_advances`) at the frequency
`instFreq_car_tick_mod` gives. -/
theorem carrierSeesNewModulatorLevel : Obligations.CarrierSeesNewModulatorLevel := by
  unfold Obligations.CarrierSeesNewModulatorLevel
  intro s a hs hr ha
  obtain rfl : tick .mod s = a := Host.Outcome.next.inj ha
  refine ⟨_, tick .car (tick .mod s), modTerm_isFloor _ _, ?_⟩
  intro f p
  have hfreq : instFreq (tick .mod s) .car = f := instFreq_car_tick_mod hr
  have hperiod : period (tick .mod s).cfg (instFreq (tick .mod s) .car) = p := by rw [hfreq, tick_cfg]
  refine ⟨rfl, fun hhold => tick_of_hold (by rwa [hperiod, hfreq]), fun hf hp => ?_⟩
  have hp1 : 1 ≤ p := Int.add_one_le_of_lt ((period_nonneg s.cfg hf).lt_of_ne' hp)
  have hstep := tick_advances (i := .car) (s := tick .mod s) (by rw [tick_cfg]; exact hs.cfg) (by rwa [hfreq])
    (by rwa [hperiod])
  rw [hperiod, tick_get_of_ne .mod s (j := .car) (by decide)] at hstep
  exact hstep

end Sys2Proof.Machine
end

section
/-! The controls: `SET_POT` writes one pending control by its rescale, or nothing (R153 to R155). -/

namespace Sys2Proof.Machine

open Sys2Proof.Claims

section potWrite
variable {c : Cfg} {paramId raw : BitVec 16} {p : Controls}

/-- An unknown channel, or a raw value the converter cannot give, is ignored (R154). -/
theorem potWrite_ignored (h : 3 < paramId.toNat ∨ 1023 < raw.toNat) : potWrite c paramId raw p = p := by
  unfold potWrite unsignedOperand
  split
  · rfl
  · split
    case h_5 => rfl
    all_goals omega

variable (hr : raw.toNat ≤ 1023)
include hr

theorem not_unsignedOperand_gt : ¬ unsignedOperand raw > 1023 := not_lt.2 (by exact_mod_cast hr)

theorem potWrite_wave (hc : paramId.toNat = 0) :
    potWrite c paramId raw p = { p with wave := waveformOfCode (raw.extractLsb' 8 2) } := by
  simp only [potWrite, if_neg (not_unsignedOperand_gt hr), hc]

theorem potWrite_intensity (hc : paramId.toNat = 1) :
    potWrite c paramId raw p = { p with intensity := depthReg (potIntensity raw.toNat) } := by
  simp only [potWrite, if_neg (not_unsignedOperand_gt hr), hc]

theorem potWrite_rate (hc : paramId.toNat = 2) :
    potWrite c paramId raw p = { p with rate := freqReg (potRate c raw.toNat) } := by
  simp only [potWrite, if_neg (not_unsignedOperand_gt hr), hc]

theorem potWrite_ratioIdx (hc : paramId.toNat = 3) :
    potWrite c paramId raw p = { p with ratioIdx := raw.extractLsb' 7 3 } := by
  simp only [potWrite, if_neg (not_unsignedOperand_gt hr), hc]

/-- Four buckets of 256 raw values name the four waveforms (R153). -/
theorem waveBucket_toNat : (raw.extractLsb' 8 2).toNat = raw.toNat / 256 := by
  rw [BitVec.extractLsb'_toNat, Nat.shiftRight_eq_div_pow]
  omega

/-- Eight buckets of 128 raw values number the eight ratios (R153). -/
theorem ratioBucket_toNat : (raw.extractLsb' 7 3).toNat = raw.toNat / 128 := by
  rw [BitVec.extractLsb'_toNat, Nat.shiftRight_eq_div_pow]
  omega

/-- The rescaled intensity is stored whole (R155). -/
theorem depthReg_potIntensity_toNat :
    (depthReg (potIntensity raw.toNat)).toNat = raw.toNat * 65536 / 1023 := by
  obtain ⟨hlo, hhi⟩ := potIntensity_range (Int.natCast_nonneg raw.toNat) (by omega)
  have hstored : ((depthReg (potIntensity raw.toNat)).toNat : Int) = potIntensity raw.toNat :=
    ofInt_toNat_of_range hlo (by omega)
  have hvalue : potIntensity raw.toNat = ((raw.toNat * 65536 / 1023 : Nat) : Int) := by push_cast; rfl
  exact_mod_cast hstored.trans hvalue

/-- The rescaled rate is stored whole (R155). -/
theorem freqReg_potRate_toNat (hv : c.Valid) : (freqReg (potRate c raw.toNat)).toNat =
    c.rateLo + raw.toNat * (c.rateHi - c.rateLo) / 1023 := by
  obtain ⟨hlo, hhi⟩ := potRate_range hv.rateLo_le_hi (Int.natCast_nonneg raw.toNat) (by omega)
  have hlt := hv.rateHi_lt
  have hstored : ((freqReg (potRate c raw.toNat)).toNat : Int) = potRate c raw.toNat :=
    ofInt_toNat_of_range (by omega) (by omega)
  have hvalue : potRate c raw.toNat = ((c.rateLo + raw.toNat * (c.rateHi - c.rateLo) / 1023 : Nat) : Int) := by
    push_cast [Nat.cast_sub hv.rateLo_le_hi]
    rfl
  exact_mod_cast hstored.trans hvalue

end potWrite

/-- Settles O36: `SET_POT` stores `potWrite` as the pending controls; each channel has its equation. -/
theorem setPotWritesOnePendingControl : Obligations.SetPotWritesOnePendingControl := by
  unfold Obligations.SetPotWritesOnePendingControl
  intro paramId raw s hv
  refine ⟨_, rfl, ?_⟩
  intro p p' r
  have hp' : p' = potWrite s.cfg paramId raw p := rfl
  refine ⟨fun h => ?ignored, fun _ _ => ⟨⟨rfl, rfl, rfl, rfl, rfl, rfl⟩, rfl⟩, fun hc hr => ?wave,
    fun hc hr => ?intensity, fun hc hr => ?rate, fun hc hr => ?ratioIdx⟩
  case ignored => rw [potWrite_ignored h]
  case wave =>
    rw [hp', potWrite_wave hr hc]
    exact ⟨(waveNumber_waveformOfCode _).trans (waveBucket_toNat hr), rfl⟩
  case intensity =>
    rw [hp', potWrite_intensity hr hc]
    exact ⟨depthReg_potIntensity_toNat hr, rfl⟩
  case rate =>
    rw [hp', potWrite_rate hr hc]
    exact ⟨freqReg_potRate_toNat hr hv, rfl⟩
  case ratioIdx =>
    rw [hp', potWrite_ratioIdx hr hc]
    exact ⟨ratioBucket_toNat hr, rfl⟩

theorem potIntensity_isFloor (raw : Int) : IsFloor (potIntensity raw) (raw * 65536) 1023 :=
  isFloor_fdiv _ (by norm_num)

theorem potRate_isFloor (c : Cfg) (raw : Int) :
    IsFloor (potRate c raw - (c.rateLo : Int)) (raw * ((c.rateHi : Int) - (c.rateLo : Int))) 1023 := by
  rw [potRate, add_sub_cancel_left]
  exact isFloor_fdiv _ (by norm_num)

/-- Raw 0 is the bottom of the rate range (R155). -/
theorem potRate_bottom (c : Cfg) : potRate c 0 = c.rateLo := by
  simp [potRate, fdiv]

/-- Raw 1023 is the top of the rate range, since the divisor is 1023 (R155). -/
theorem potRate_top (c : Cfg) : potRate c 1023 = c.rateHi := by
  rw [potRate, fdiv, Int.mul_ediv_cancel_left _ (by norm_num), add_sub_cancel]

/-- Settles O37: both rescales are floors inside their ranges (`potIntensity_range`, `potRate_range`). -/
theorem potRescales : Obligations.PotRescales := by
  unfold Obligations.PotRescales
  refine ⟨fun raw h0 h1 => ?_, fun c _ => ⟨potRate_bottom c, potRate_top c⟩, by decide⟩
  obtain ⟨hlo, hhi⟩ := potIntensity_range h0 h1
  refine ⟨by omega, potIntensity_isFloor raw, hlo, hhi, fun c hv => ?_⟩
  have hle := hv.rateLo_le_hi
  have hlt := hv.rateHi_lt
  have hproduct : raw * ((c.rateHi : Int) - c.rateLo) ≤ 1023 * ((c.rateHi : Int) - c.rateLo) :=
    mul_le_mul_of_nonneg_right h1 (by omega)
  exact ⟨by omega, potRate_isFloor c raw, potRate_range hle h0 h1⟩

end Sys2Proof.Machine
end

section
/-! The notes: what `NOTE_ON` stores, and the one key `NOTE_OFF` clears (R157, R158). -/

namespace Sys2Proof.Machine

/-- The frequency of a key is its table entry, stored whole (R151, R157). -/
theorem freqReg_romRead_freq_toNat {key : Nat} (h : key ≤ 127) :
    ((freqReg (romRead .freq key)).toNat : Int) = romRead .freq key := by
  obtain ⟨hlo, hhi⟩ := romRead_freq_range (Int.natCast_nonneg key) (by omega)
  exact ofInt_toNat_of_range (by omega) (by omega)

/-- Settles O38: `noteOn_cases`; a key up to 127 fits its register and lies inside the table. -/
theorem noteOnSetsKeyAndFrequency : Obligations.NoteOnSetsKeyAndFrequency := by
  unfold Obligations.NoteOnSetsKeyAndFrequency
  intro key s
  refine ⟨noteOn key.toNat s, rfl, ?_⟩
  rcases noteOn_cases key.toNat s with ⟨hgt, e⟩ | ⟨hle, e⟩
  · exact ⟨fun h => by omega, fun _ => e⟩
  · refine ⟨fun h => ?_, fun h => by omega⟩
    have hkey : ((BitVec.ofInt 7 (key.toNat : Int)).toNat : Int) = key.toNat :=
      ofInt_toNat_of_range (Int.natCast_nonneg _) (by omega)
    have hentry : (romContents .freq)[key.toNat]? = some (romRead .freq key.toNat) :=
      romContents_getElem? .freq (k := key.toNat) (Int.natCast_nonneg _) (by rw [freqRom_length]; omega)
    rw [e]
    refine ⟨rfl, Int.ofNat_inj.1 hkey, ?_, rfl, rfl, rfl, rfl, rfl, rfl, rfl⟩
    rw [hentry, freqReg_romRead_freq_toNat h]

/-- Settles O39: `noteOff_cases`. -/
theorem noteOffClearsOnlyTheActiveKey : Obligations.NoteOffClearsOnlyTheActiveKey := by
  unfold Obligations.NoteOffClearsOnlyTheActiveKey
  intro key s
  refine ⟨noteOff key.toNat s, rfl, ?_⟩
  rcases noteOff_cases key.toNat s with ⟨hactive, hkey, e⟩ | ⟨hother, e⟩ <;> rw [e]
  · exact ⟨fun _ _ => ⟨rfl, rfl, rfl, rfl, rfl, rfl, rfl⟩, by simp [hactive, Int.ofNat_inj.1 hkey]⟩
  · exact ⟨fun hactive hkey => absurd ⟨hactive, congrArg _ hkey⟩ hother, fun _ => rfl⟩

end Sys2Proof.Machine
end

section
/-! The output map (R164). -/

namespace Sys2Proof.Machine

open Sys2Proof.Claims

theorem mapLevel_isFloor (c : Cfg) (l : Int) :
    IsFloor (mapLevel c l - c.outLow) ((c.outHigh - c.outLow) * (l + 65536) + 65536) 131072 := by
  rw [mapLevel, add_sub_cancel_left]
  exact isFloor_fdiv _ (by norm_num)

theorem mapLevel_bottom (c : Cfg) : mapLevel c (-65536) = c.outLow := by
  simp [mapLevel, fdiv]

theorem mapLevel_top (c : Cfg) : mapLevel c 65536 = c.outHigh := by
  obtain ⟨hle, hlt⟩ := mapLevel_isFloor c 65536
  omega

/-- A higher level never gives a lower sample (R164). -/
theorem mapLevel_mono {c : Cfg} (hc : c.outLow ≤ c.outHigh) {l l' : Int} (h : l ≤ l') :
    mapLevel c l ≤ mapLevel c l' := by
  have hproduct : (c.outHigh - c.outLow) * (l + 65536) ≤ (c.outHigh - c.outLow) * (l' + 65536) :=
    mul_le_mul_of_nonneg_left (by omega) (by omega)
  exact add_le_add_right (Int.ediv_le_ediv (by norm_num) (add_le_add_left hproduct _)) _

theorem outLow_le_outHigh {c : Cfg} (hc : c.Valid) : c.outLow ≤ c.outHigh :=
  hc.outLow_le_null.trans hc.outNull_le_high

/-- Settles O43: a rounded rescale of LEVEL format onto the output range, of width below `2^32`. -/
theorem outputMap : Obligations.OutputMap := by
  unfold Obligations.OutputMap
  refine ⟨fun c hc => ⟨mapLevel_bottom c, mapLevel_top c, fun l h0 h1 => ?_⟩, by decide⟩
  have hle := outLow_le_outHigh hc
  have hlow := hc.outLow_ge
  have hhigh := hc.outHigh_lt
  have hproduct : (c.outHigh - c.outLow) * (l + 65536) ≤ (c.outHigh - c.outLow) * 131072 :=
    mul_le_mul_of_nonneg_left (by omega) (by omega)
  obtain ⟨hlo, hhi⟩ := mapLevel_range c hle h0 h1
  exact ⟨by omega, mapLevel_isFloor c l, hlo, hhi, fun _ hl => mapLevel_mono hle hl, fun _ => rfl⟩

end Sys2Proof.Machine
end

section
/-! `RENDER`: the latch, the silent frame and the frame of a held key, and the frame counter (R159 to R166). -/

namespace Sys2Proof.Machine

/-- The latch at a buffer start writes the four active controls together and nothing else (R160). -/
theorem latchAtBufferStart_eq (s : State) : latchAtBufferStart s = { s with voice := { s.voice with
    act := if s.voice.frameCtr = 0 then s.voice.pend else s.voice.act } } := by
  unfold latchAtBufferStart
  split <;> rfl

/-- Of the voice a frame writes the active controls and the frame counter (R160, R166). -/
theorem execRender_voice (s : State) : ∃ t, execRender s = .next t ∧ t.voice = { s.voice with
    act := if s.voice.frameCtr = 0 then s.voice.pend else s.voice.act
    frameCtr := t.voice.frameCtr } := by
  refine ⟨_, rfl, ?_⟩
  rw [emitAud_voice, countFrame, sample_voice, latchAtBufferStart_eq]

/-- Whatever it samples, a `RENDER` is one frame (R159, R160, R165, R166). -/
theorem frameStep_of_execRender {s t : State} (hc : s.cfg.Valid) (he : execRender s = .next t) : FrameStep s t := by
  obtain ⟨u, hu, -, hframe⟩ := execRender_frameStep hc
  obtain rfl : u = t := Host.Outcome.next.inj (hu.symm.trans he)
  exact hframe

/-- With no key active a frame is `OUT_NULL` on both channels, after the latch (R161). -/
theorem execRender_silent {s : State} (h : s.voice.keyActive = false) : execRender s =
    .next (emitAud (samplePort s.cfg.outNull) (samplePort s.cfg.outNull) (isLastFrame (latchAtBufferStart s))
      (countFrame (latchAtBufferStart s))) := by
  rw [execRender, sample_silent (by rwa [latchAtBufferStart_keyActive]), latchAtBufferStart_cfg]

/-- With a key active a frame maps the carrier's level after the latch, the push and the three ticks (R159, R162 to
R165). -/
theorem execRender_active {s c : State} (h : s.voice.keyActive = true)
    (hc : c = tickAll (push (latchAtBufferStart s))) : execRender s =
    .next (emitAud (samplePort (mapLevel s.cfg c.osc.car.levelVal)) (samplePort (mapLevel s.cfg c.osc.car.levelVal))
      (isLastFrame c) (countFrame c)) := by
  rw [execRender, sample_active (by rwa [latchAtBufferStart_keyActive]), latchAtBufferStart_cfg, hc]

/-- A legal carrier's mapped level crosses the audio port unchanged (R83, R164). -/
theorem samplePort_mapLevel_toInt {c : Cfg} (hc : c.Valid) {o : Osc} (ho : OscLegal o) :
    (samplePort (mapLevel c o.levelVal)).toInt = mapLevel c o.levelVal := by
  obtain ⟨hlo, hhi⟩ := mapLevel_range c (outLow_le_outHigh hc) ho.level_ge ho.level_le
  exact samplePort_toInt (hc.outLow_ge.trans hlo) (hhi.trans_lt hc.outHigh_lt)

/-- Settles O40: `execRender_silent`; the latch, the counter and the port are all it writes. -/
theorem silentRenderEmitsNull : Obligations.SilentRenderEmitsNull := by
  unfold Obligations.SilentRenderEmitsNull
  intro s hv hk
  have hnull : (samplePort s.cfg.outNull).toInt = s.cfg.outNull :=
    samplePort_toInt (hv.outLow_ge.trans hv.outLow_le_null) (hv.outNull_le_high.trans_lt hv.outHigh_lt)
  have hrender := execRender_silent hk
  have hcount := (frameStep_of_execRender hv hrender).frameCtr
  refine ⟨_, _, _, hrender, rfl, hnull, ?_⟩
  rw [latchAtBufferStart_eq] at hcount ⊢
  exact ⟨rfl, rfl, rfl, rfl, rfl, rfl, hcount⟩

/-- The push gives the LFO the active rate, unless that is 0 (R162). -/
theorem push_lfo (s : State) : (push s).osc.lfo = { s.osc.lfo with
    base := if 0 < s.voice.act.rate.toNat then s.voice.act.rate else s.osc.lfo.base } := by
  unfold push
  dsimp only
  split <;> rfl

/-- The modulator's base frequency, the held key's times the ratio, fits its register (R24, R162). -/
theorem push_mod_base_toNat {s : State} (hs : StateLegal s) (hk : s.voice.keyActive = true) :
    ((push s).osc.mod.base.toNat : Int) =
      s.voice.tfreq.toNat * romRead .ratio (s.voice.act.ratioIdx.toNat : Int) := by
  have hkey := s.voice.key.isLt
  have hidx := s.voice.act.ratioIdx.isLt
  obtain ⟨hflo, hfhi⟩ := romRead_freq_range (k := s.voice.key.toNat) (Int.natCast_nonneg _) (by omega)
  obtain ⟨hrlo, hrhi⟩ := romRead_ratio_range (k := s.voice.act.ratioIdx.toNat) (Int.natCast_nonneg _) (by omega)
  rw [← hs.voice.tfreq_of_active hk] at hflo hfhi
  have hnonneg : 0 ≤ modulatorBase s.voice := mul_nonneg (by omega) (by omega)
  have hle : modulatorBase s.voice ≤ 102759265 * 13 := mul_le_mul hfhi hrhi (by omega) (by norm_num)
  exact ofInt_toNat_of_range hnonneg (by omega)

/-- Settles O41: the frame of a held key (`execRender_active`), with the push and the three ticks as its intermediate
states; in a legal state nothing it stores is cut short. -/
theorem activeRenderPushesTicksAndMaps : Obligations.ActiveRenderPushesTicksAndMaps := by
  unfold Obligations.ActiveRenderPushesTicksAndMaps
  intro s hs hk
  have hl := hs.latchAtBufferStart
  have hcar := hl.push.tickAll.osc .car
  obtain ⟨-, hratio, -⟩ := tablesAreReadInRange _ hl
  have hmod := push_mod_base_toNat hl (by rwa [latchAtBufferStart_keyActive])
  have hlfo := push_lfo (latchAtBufferStart s)
  have hlast : isLastFrame (tickAll (push (latchAtBufferStart s))) = true ↔
      s.voice.frameCtr.toNat + 1 = s.cfg.bufFrames := by
    simp [isLastFrame_eq]
  have hrender := execRender_active hk rfl
  have hcount := (frameStep_of_execRender hs.cfg hrender).frameCtr
  rw [latchAtBufferStart_act] at hratio hmod hlfo
  rw [latchAtBufferStart_tfreq] at hmod
  rw [latchAtBufferStart_osc] at hlfo
  refine ⟨push (latchAtBufferStart s), _, _, _, _, _, _, _, hratio, hlfo, hmod, ?mod, ?car, ?rest, rfl, rfl,
    rfl, hrender, rfl, samplePort_mapLevel_toInt hs.cfg hcar, hlast, hcount, rfl⟩
  all_goals
    rw [latchAtBufferStart_eq]
    rfl

/-- Only `RENDER` writes the active controls and the frame counter (R40, R160, R166). -/
theorem exec_act_frameCtr_of_ne_render {i : Instr} {s t : State} (hi : i ≠ .render) (he : exec i s = .next t) :
    t.voice.act = s.voice.act ∧ t.voice.frameCtr = s.voice.frameCtr := by
  by_contra hne
  exact hi ((exec_footprint he).voice.act_frameCtr_writers (not_and_or.1 hne))

/-- Settles O42: `execRender_voice`, and `exec_act_frameCtr_of_ne_render` for the other commands. -/
theorem controlsAreLatchedAtBufferStart : Obligations.ControlsAreLatchedAtBufferStart := by
  unfold Obligations.ControlsAreLatchedAtBufferStart
  intro i s t he
  by_cases hi : i = .render
  · subst hi
    have hvoice := of_exec_next he (execRender_voice s)
    rw [hvoice]
    exact ⟨fun _ h => if_pos h, fun _ h => if_neg h, fun h => absurd rfl h, fun _ => ⟨rfl, rfl, rfl⟩⟩
  · exact ⟨fun h => absurd h hi, fun h => absurd h hi, fun _ => (exec_act_frameCtr_of_ne_render hi he).1,
      fun h => absurd h hi⟩

/-- Settles O44: `execRender_frameStep`; with one frame a buffer the counter is 0 in every frame. -/
theorem renderCountsFrames : Obligations.RenderCountsFrames := by
  unfold Obligations.RenderCountsFrames
  refine ⟨fun s hv hlt => ?_, fun i s t hi he => (exec_act_frameCtr_of_ne_render hi he).2⟩
  obtain ⟨t, ht, -, hframe⟩ := execRender_frameStep hv
  obtain ⟨x, hout⟩ := hframe.out
  refine ⟨t, x, _, ht, hout, by rw [decide_eq_true_iff]; omega, hframe.frameCtr, fun hone => ?_⟩
  have hzero : s.voice.frameCtr = 0 := BitVec.eq_of_toNat_eq (Nat.lt_one_iff.1 (hone ▸ hlt))
  exact ⟨by rw [hzero, hone]; rfl, hframe.act.trans (if_pos hzero)⟩

end Sys2Proof.Machine
end

section
/-! Many frames: the counter moves by their number, and silence does not drift (R161, R166). -/

namespace Sys2Proof.Machine

theorem execTimes_succ_of_exec {i : Instr} {s t : State} (h : exec i s = .next t) (n : Nat) :
    execTimes i (n + 1) s = execTimes i n t := by
  rw [execTimes, h]

/-- Settles O46: by induction on the frames, each of which counts one (`execRender_frameStep`). -/
theorem frameCounterAfterManyRenders : Obligations.FrameCounterAfterManyRenders := by
  unfold Obligations.FrameCounterAfterManyRenders
  intro n
  induction n with
  | zero => exact fun s _ hlt => ⟨s, rfl, rfl, (Nat.mod_eq_of_lt hlt).symm⟩
  | succ n ih =>
    intro s hv _
    obtain ⟨u, hu, -, hframe⟩ := execRender_frameStep hv
    have hult : u.voice.frameCtr.toNat < u.cfg.bufFrames := by
      rw [hframe.frameCtr, hframe.cfg]
      exact Nat.mod_lt _ hv.bufFrames_pos
    obtain ⟨t, ht, hcfg, hctr⟩ := ih u (hframe.cfg.symm ▸ hv) hult
    refine ⟨t, (execTimes_succ_of_exec (i := .render) hu n).trans ht, hcfg.trans hframe.cfg, ?_⟩
    rw [hctr, hframe.frameCtr, hframe.cfg, Nat.mod_add_mod, add_assoc, add_comm 1]

/-- A `RENDER` word while no key is active is one silent frame, and leaves the key inactive (R81, R161). -/
theorem step_render_silent {s : State} {rest : List HostInput} (hv : s.cfg.Valid) (hk : s.voice.keyActive = false)
    (hport : s.cmdPort = .cmd 0xB000000000 :: rest) :
    ∃ t x last, step s = .next t ∧ t.out = .aud x x last ∧ x.toInt = s.cfg.outNull ∧ t.osc = s.osc ∧
      t.cfg = s.cfg ∧ t.cmdPort = rest ∧ t.voice.keyActive = false := by
  obtain ⟨t, x, last, ht, hout, hx, hosc, hcfg, -, -, hrest, hvoice, -⟩ :=
    silentRenderEmitsNull (accept rest s) hv hk
  have hkt : t.voice.keyActive = false := by rw [hvoice]; exact hk
  exact ⟨t, x, last, (step_cmd hport (decode_encode .render)).trans ht, hout, hx, hosc, hcfg, hrest, hkt⟩

/-- Settles O47: by induction on the frames, each of which is silent (`step_render_silent`). -/
theorem silenceDoesNotDrift : Obligations.SilenceDoesNotDrift := by
  unfold Obligations.SilenceDoesNotDrift
  intro n
  induction n with
  | zero => exact fun s _ hk _ => ⟨s, rfl, rfl, hk, rfl, nofun⟩
  | succ n ih =>
    intro s hv hk hport
    obtain ⟨u, x, last, hu, hout, hx, hosc, hcfg, huport, hku⟩ := step_render_silent hv hk hport
    obtain ⟨t, ht, htosc, hkt, hlen, hframes⟩ := ih u (hcfg.symm ▸ hv) hku huport
    rw [runSteps_succ_of_step hu, emitted_succ_of_step hu]
    refine ⟨t, ht, htosc.trans hosc, hkt, congrArg (· + 1) hlen, fun o ho => ?_⟩
    rcases List.mem_cons.1 ho with rfl | ho
    · exact ⟨x, last, hout, hx⟩
    · exact hcfg ▸ hframes o ho

end Sys2Proof.Machine
end

section
/-! The byte classes of R180, and what `MIDI_BYTE` does with a byte of each class in each decoder state (R182). -/

namespace Sys2Proof.Machine

open Sys2Proof.Claims

theorem isStatusByte_iff (b : Byte) : isStatusByte b = true ↔ 0x80 ≤ b.toNat := by
  rw [isStatusByte, ← BitVec.msb_eq_getLsbD_last, BitVec.msb_eq_decide, decide_eq_true_iff]

theorem isNoteStatus_iff : ∀ b : Byte, isNoteStatus b = true ↔ 0x80 ≤ b.toNat ∧ b.toNat < 0xA0 := by decide

/-- A status byte breaks into any message, so the state before it does not matter. -/
theorem execMidiByte_of_status {b : Byte} (s : State) (h : 0x80 ≤ b.toNat) :
    execMidiByte b s = .next (matchStatus b s) :=
  if_pos (.inr ((isStatusByte_iff b).2 h))

theorem execMidiByte_noteStatus {b : Byte} (s : State) (h0 : 0x80 ≤ b.toNat) (h1 : b.toNat < 0xA0) :
    execMidiByte b s = .next (withMidi s { s.midi with state := .awaitingData1, status := b }) := by
  rw [execMidiByte_of_status s h0, matchStatus, if_pos ((isNoteStatus_iff b).2 ⟨h0, h1⟩), withMidi]

theorem execMidiByte_otherStatus {b : Byte} (s : State) (h : 0xA0 ≤ b.toNat) :
    execMidiByte b s = .next (withMidi s { s.midi with state := .awaitingStatus }) := by
  have hother : ¬ isNoteStatus b = true := fun hb => absurd ((isNoteStatus_iff b).1 hb).2 (not_lt.2 h)
  rw [execMidiByte_of_status s (le_trans (by decide) h), matchStatus, if_neg hother, withMidi]

section dataByte
variable {b : Byte} {s : State} (hb : b.toNat < 0x80)
include hb

theorem not_isStatusByte_of_data : ¬ isStatusByte b = true :=
  fun h => absurd ((isStatusByte_iff b).1 h) (not_le.2 hb)

/-- A data byte that belongs to no message is dropped. -/
theorem execMidiByte_strayData (hs : s.midi.state = .awaitingStatus) : execMidiByte b s = .next s := by
  have hother : ¬ isNoteStatus b = true := fun h => absurd ((isNoteStatus_iff b).1 h).1 (not_le.2 hb)
  rw [execMidiByte, if_pos (.inl hs), matchStatus, if_neg hother, ← hs]

theorem execMidiByte_firstData (hs : s.midi.state = .awaitingData1) :
    execMidiByte b s = .next (withMidi s { s.midi with state := .awaitingData2, data1 := b }) := by
  rw [execMidiByte, if_neg (by simp [hs, not_isStatusByte_of_data hb]), if_pos hs, withMidi]

/-- The byte that completes a message dispatches it, with the decoder back at rest. -/
theorem execMidiByte_secondData (hs : s.midi.state = .awaitingData2) :
    execMidiByte b s = .next (dispatch s.midi.status s.midi.data1 b
      (withMidi s { s.midi with state := .awaitingStatus })) := by
  rw [execMidiByte, if_neg (by simp [hs, not_isStatusByte_of_data hb]), if_neg (by simp [hs]), withMidi]

end dataByte

/-- Settles O48: one equation per row of the table; the next state they speak of is the one `exec` answers. -/
theorem midiByteTransitions : Obligations.MidiByteTransitions := by
  unfold Obligations.MidiByteTransitions
  intro b s
  obtain ⟨t, ht, -⟩ := exec_next_frame (.midiByte b) s
  have next_eq {u : State} (hu : execMidiByte b s = .next u) : t = u :=
    Host.Outcome.next.inj (ht.symm.trans hu)
  exact ⟨t, ht,
    fun hs hb => next_eq (execMidiByte_strayData hb hs),
    fun h0 h1 => next_eq (execMidiByte_noteStatus s h0 h1),
    fun h => next_eq (execMidiByte_otherStatus s h),
    fun hs hb => next_eq (execMidiByte_firstData hb hs),
    fun hs hb => (execMidiByte_secondData hb hs).symm.trans ht⟩

end Sys2Proof.Machine
end

section
/-! The four branches of `Dispatch`, and that it neither reads nor writes the decoder registers (R184, R186). -/

namespace Sys2Proof.Machine

open Sys2Proof.Claims

theorem highNibble_eq_iff (b : Byte) (n : BitVec 4) : b.extractLsb' 4 4 = n ↔ b.toNat / 16 = n.toNat := by
  rw [← BitVec.toNat_inj, BitVec.extractLsb'_toNat, Nat.shiftRight_eq_div_pow,
    Nat.mod_eq_of_lt (by omega)]

section branches
variable {b0 b1 b2 : Byte} {s : State}

theorem dispatch_noteOn (h9 : b0.toNat / 16 = 9) (h2 : 0 < b2.toNat) :
    dispatch b0 b1 b2 s = noteOn b1.toNat s := by
  simp [dispatch, (highNibble_eq_iff b0 9).2 h9, h2]

/-- A Note On of velocity 0 is a Note Off. -/
theorem dispatch_noteOn_velocity_zero (h9 : b0.toNat / 16 = 9) (h2 : b2.toNat = 0) :
    dispatch b0 b1 b2 s = noteOff b1.toNat s := by
  simp [dispatch, (highNibble_eq_iff b0 9).2 h9, h2]

theorem dispatch_noteOff (h8 : b0.toNat / 16 = 8) : dispatch b0 b1 b2 s = noteOff b1.toNat s := by
  simp [dispatch, (highNibble_eq_iff b0 8).2 h8]

theorem dispatch_other (h8 : b0.toNat / 16 ≠ 8) (h9 : b0.toNat / 16 ≠ 9) : dispatch b0 b1 b2 s = s := by
  have h9' := (highNibble_eq_iff b0 9).not.2 h9
  rw [dispatch, if_neg (h9' ·.1), if_neg (h9' ·.1), if_neg ((highNibble_eq_iff b0 8).not.2 h8)]

end branches

/-- A note command carries its key in a word, a message carries it in a byte. -/
theorem unsignedOperand_setWidth_byte (b : Byte) : unsignedOperand (b.setWidth 32) = b.toNat :=
  congrArg _ (BitVec.toNat_setWidth_of_le (by decide))

theorem exec_noteOn_byte (b : Byte) (s : State) : exec (.noteOn (b.setWidth 32)) s = .next (noteOn b.toNat s) := by
  rw [← unsignedOperand_setWidth_byte]
  rfl

theorem exec_noteOff_byte (b : Byte) (s : State) : exec (.noteOff (b.setWidth 32)) s = .next (noteOff b.toNat s) := by
  rw [← unsignedOperand_setWidth_byte]
  rfl

theorem noteOn_withMidi (key : Int) (s : State) (m : Midi) :
    noteOn key (withMidi s m) = withMidi (noteOn key s) m := by
  rw [noteOn, noteOn, apply_ite (withMidi · m)]
  rfl

theorem noteOff_withMidi (key : Int) (s : State) (m : Midi) :
    noteOff key (withMidi s m) = withMidi (noteOff key s) m := by
  rw [noteOff, noteOff, apply_ite (withMidi · m)]
  rfl

theorem dispatch_withMidi (b0 b1 b2 : Byte) (s : State) (m : Midi) :
    dispatch b0 b1 b2 (withMidi s m) = withMidi (dispatch b0 b1 b2 s) m := by
  rcases dispatch_eq_note b0 b1 b2 with h | h | h
  · rw [h, h, noteOn_withMidi]
  · rw [h, h, noteOff_withMidi]
  · rw [h, h]

@[simp] theorem dispatch_midi (b0 b1 b2 : Byte) (s : State) : (dispatch b0 b1 b2 s).midi = s.midi := by
  obtain ⟨v, h, -⟩ := dispatch_frame b0 b1 b2 s
  rw [h]

/-- Settles O49: the branches of `Dispatch`, whose key is the operand of the note command. -/
theorem midiPacketActsAsNote : Obligations.MidiPacketActsAsNote := by
  unfold Obligations.MidiPacketActsAsNote
  intro b0 b1 b2 s
  rw [exec_noteOn_byte, exec_noteOff_byte]
  exact ⟨fun h9 h2 => congrArg _ (dispatch_noteOn h9 h2),
    fun h9 h2 => congrArg _ (dispatch_noteOn_velocity_zero h9 h2),
    fun h8 => congrArg _ (dispatch_noteOff h8),
    fun h8 h9 => congrArg _ (dispatch_other h8 h9),
    fun m => ⟨_, rfl, dispatch_midi b0 b1 b2 s, congrArg _ (dispatch_withMidi b0 b1 b2 s m)⟩⟩

end Sys2Proof.Machine
end

section
/-! A MIDI message as a run of `MIDI_BYTE` words (R81, R182, R184). -/

namespace Sys2Proof.Machine

open Sys2Proof.Claims

/-- A run goes on from where its first steps end. -/
theorem runSteps_add {m : Nat} (n : Nat) {s t : State} (h : runSteps m s = .next t) :
    runSteps (m + n) s = runSteps n t := by
  induction m generalizing s with
  | zero => rw [Nat.zero_add, Host.Outcome.next.inj h]
  | succ m ih =>
    obtain ⟨u, hu, -⟩ := step_next_cfg s
    rw [runSteps_succ_of_step hu] at h
    rw [Nat.succ_add, runSteps_succ_of_step hu, ih h]

theorem runSteps_one (s : State) : runSteps 1 s = step s := by
  obtain ⟨u, hu, -⟩ := step_next_cfg s
  rw [runSteps_succ_of_step hu, hu, runSteps]

/-- A `MIDI_BYTE` word at the front of the port hands its byte to the decoder. -/
theorem step_midiByte {s : State} {b : Byte} {rest : List HostInput}
    (h : s.cmdPort = .cmd (encode (.midiByte b)) :: rest) : step s = execMidiByte b (accept rest s) :=
  step_cmd h (decode_encode (.midiByte b))

/-- The state after the first byte of a note message. -/
def afterNoteStatus (s : State) (b0 : Byte) (rest : List HostInput) : State :=
  withMidi (accept rest s) { s.midi with state := .awaitingData1, status := b0 }

/-- The state after the first two bytes of a note message. -/
def afterFirstData (s : State) (b0 b1 : Byte) (rest : List HostInput) : State :=
  withMidi (accept rest s) { state := .awaitingData2, status := b0, data1 := b1 }

/-- The state after a Note On message that came in byte by byte. -/
def afterNoteOnMessage (s : State) (b0 b1 : Byte) (rest : List HostInput) : State :=
  noteOn b1.toNat (withMidi (accept rest s) { state := .awaitingStatus, status := b0, data1 := b1 })

section message
variable {s : State} {b0 b1 b2 : Byte} {rest : List HostInput}

/-- A note status byte starts a message in every decoder state. -/
theorem runSteps_noteStatus (h0 : 0x80 ≤ b0.toNat) (h1 : b0.toNat < 0xA0)
    (hport : s.cmdPort = .cmd (encode (.midiByte b0)) :: rest) :
    runSteps 1 s = .next (afterNoteStatus s b0 rest) := by
  rw [runSteps_one, step_midiByte hport, execMidiByte_noteStatus _ h0 h1]
  rfl

theorem runSteps_firstData (h0 : 0x80 ≤ b0.toNat) (h1 : b0.toNat < 0xA0) (hb1 : b1.toNat < 0x80)
    (hport : s.cmdPort = .cmd (encode (.midiByte b0)) :: .cmd (encode (.midiByte b1)) :: rest) :
    runSteps 2 s = .next (afterFirstData s b0 b1 rest) := by
  rw [runSteps_add (m := 1) 1 (runSteps_noteStatus h0 h1 hport), runSteps_one, step_midiByte rfl,
    execMidiByte_firstData hb1 rfl]
  rfl

/-- The three bytes of a Note On, whatever the decoder was waiting for. -/
theorem runSteps_noteOnMessage (h9 : b0.toNat / 16 = 9) (hb1 : b1.toNat < 0x80) (hpos : 0 < b2.toNat)
    (hb2 : b2.toNat < 0x80)
    (hport : s.cmdPort = .cmd (encode (.midiByte b0)) :: .cmd (encode (.midiByte b1)) ::
      .cmd (encode (.midiByte b2)) :: rest) :
    runSteps 1 s = .next (afterNoteStatus s b0
      (.cmd (encode (.midiByte b1)) :: .cmd (encode (.midiByte b2)) :: rest)) ∧
    runSteps 2 s = .next (afterFirstData s b0 b1 (.cmd (encode (.midiByte b2)) :: rest)) ∧
    runSteps 3 s = .next (afterNoteOnMessage s b0 b1 rest) := by
  have hlo : 0x80 ≤ b0.toNat := by omega
  have hhi : b0.toNat < 0xA0 := by omega
  have htwo := runSteps_firstData hlo hhi hb1 hport
  refine ⟨runSteps_noteStatus hlo hhi hport, htwo, ?_⟩
  rw [runSteps_add (m := 2) 1 htwo, runSteps_one, step_midiByte rfl, execMidiByte_secondData hb2 rfl]
  exact congrArg _ (dispatch_noteOn h9 hpos)

end message

/-- Settles O50: the three states of a Note On message for key 60. -/
theorem midiDecodeRoundTrip : Obligations.MidiDecodeRoundTrip := by
  unfold Obligations.MidiDecodeRoundTrip
  intro s rest _ hport
  obtain ⟨ha, hb, ht⟩ := runSteps_noteOnMessage (b0 := 0x90) (b1 := 0x3C) (b2 := 0x40)
    (by decide) (by decide) (by decide) (by decide) hport
  exact ⟨_, _, _, ha, hb, ht, rfl, rfl, rfl, rfl, rfl, rfl, rfl, rfl, rfl, rfl, rfl⟩

/-- Settles O51: what follows the two bytes of the dropped message is a whole Note On message for key 64. -/
theorem midiResync : Obligations.MidiResync := by
  unfold Obligations.MidiResync
  intro s rest _ hport
  have hdropped := runSteps_firstData (b0 := 0x90) (b1 := 0x3C) (by decide) (by decide) (by decide) hport
  obtain ⟨ha, hb, ht⟩ := runSteps_noteOnMessage (b0 := 0x91) (b1 := 0x40) (b2 := 0x50) (rest := rest)
    (s := afterFirstData s 0x90 0x3C (.cmd 0xC000000091 :: .cmd 0xC000000040 :: .cmd 0xC000000050 :: rest))
    (by decide) (by decide) (by decide) (by decide) rfl
  exact ⟨_, _, _, (runSteps_add 1 hdropped).trans ha, (runSteps_add 2 hdropped).trans hb,
    (runSteps_add 3 hdropped).trans ht, rfl, rfl, rfl, rfl, rfl, rfl, rfl, rfl, rfl, rfl, rfl⟩

end Sys2Proof.Machine
end

section
/-! The system commands: the one encoding of `NOP` (R200), and the status word field by field (R201). -/

namespace Sys2Proof.Machine

/-- Settles O52: a word is the encoding of the command it decodes to (`encode_of_decode`), and that of `NOP` is 0. -/
theorem nopHolds : Obligations.NopHolds := by
  unfold Obligations.NopHolds
  have hzero : encode .nop = 0 := by decide
  refine ⟨fun _ => rfl, fun w => ⟨fun h => ?_, ?_⟩⟩
  · rw [← encode_of_decode h, hzero]
  · rintro rfl
    rw [← hzero, decode_encode]

/-- The four bits at the bottom of the status word (R201). -/
def statusFlags (keyActive contract illegal : Bool) : BitVec 4 :=
  BitVec.ofBool keyActive ++ (0#1 ++ (BitVec.ofBool contract ++ BitVec.ofBool illegal))

theorem statusFlags_getLsbD : ∀ keyActive contract illegal : Bool,
    (statusFlags keyActive contract illegal).getLsbD 0 = illegal ∧
    (statusFlags keyActive contract illegal).getLsbD 1 = contract ∧
    (statusFlags keyActive contract illegal).getLsbD 2 = false ∧
    (statusFlags keyActive contract illegal).getLsbD 3 = keyActive := by
  decide

section fields
variable (s : State)

theorem statusWord_getLsbD_of_lt {i : Nat} (hi : i < 4) :
    (statusWord s).getLsbD i = (statusFlags s.voice.keyActive s.err.contract s.err.illegal).getLsbD i := by
  rw [statusWord, BitVec.getLsbD_append, if_pos (by omega), BitVec.getLsbD_append, if_pos (by omega),
    BitVec.getLsbD_append, if_pos hi]
  rfl

theorem statusWord_key : (statusWord s).extractLsb' 4 7 = s.voice.key := by
  rw [statusWord, BitVec.extractLsb'_append_eq_of_add_le (by norm_num),
    BitVec.extractLsb'_append_eq_of_add_le (by norm_num)]
  exact BitVec.extractLsb'_append_eq_left

theorem statusWord_midiState : (statusWord s).extractLsb' 11 2 = s.midi.state.code := by
  rw [statusWord, BitVec.extractLsb'_append_eq_of_add_le (by norm_num)]
  exact BitVec.extractLsb'_append_eq_left

theorem statusWord_high : (statusWord s).extractLsb' 13 19 = 0 :=
  BitVec.extractLsb'_append_eq_left

end fields

/-- Settles O53: the command answers `statusWord` and writes nothing else; each field of the word has its lemma. -/
theorem statusWordFields : Obligations.StatusWordFields := by
  unfold Obligations.StatusWordFields
  intro s
  obtain ⟨hillegal, hcontract, hzero, hactive⟩ :=
    statusFlags_getLsbD s.voice.keyActive s.err.contract s.err.illegal
  refine ⟨emitRsp (statusWord s) s, statusWord s, rfl, emitRsp_out _ s, ⟨rfl, rfl, rfl, rfl, rfl, rfl⟩,
    (statusWord_getLsbD_of_lt s (by decide)).trans hillegal, (statusWord_getLsbD_of_lt s (by decide)).trans hcontract,
    (statusWord_getLsbD_of_lt s (by decide)).trans hzero, (statusWord_getLsbD_of_lt s (by decide)).trans hactive,
    statusWord_key s, ?midiState, statusWord_high s⟩
  case midiState =>
    rw [statusWord_midiState]
    cases s.midi.state <;> rfl

end Sys2Proof.Machine
end

section
/-! The two sticky flags: what sets them, and that only a reset clears them (R210 to R212, R217, R219). -/

namespace Sys2Proof.Machine

/-- The one shape of the three checked setters: inside the domain `D` a write, outside it ContractViolation (R212). -/
theorem contract_iff_of_write_or_raise {D : Prop} {s t a : State} {o : Host.Outcome State Fault Refusal}
    (hcases : (D ∧ o = .next a) ∨ (¬ D ∧ o = .next (raise .contractViolation s)))
    (ha : a.err = s.err) (ho : o = .next t) :
    t.err.contract = true ↔ s.err.contract = true ∨ ¬ D := by
  rcases hcases with ⟨hD, h⟩ | ⟨hD, h⟩ <;> obtain rfl := Host.Outcome.next.inj (ho.symm.trans h)
  · simp [ha, hD]
  · simp [hD]

/-- The three checked setters each have their domain; of the other commands none writes the flag (`exec_footprint`). -/
theorem exec_contract_iff {i : Instr} {s t : State} (he : exec i s = .next t) :
    t.err.contract = true ↔ s.err.contract = true ∨
      (∃ j x, i = .oscSetWaveform j x ∧ 3 < x.toNat) ∨
      (∃ j x, i = .oscSetDetune j x ∧ (x.toInt < -128 ∨ 128 < x.toInt)) ∨
      (∃ j x, i = .oscSetModdepth j x ∧ 65536 < x.toNat) := by
  cases i with
  | oscSetWaveform j w => simpa using contract_iff_of_write_or_raise (execOscSetWaveform_cases j w s) rfl he
  | oscSetDetune j d =>
    simpa [imp_iff_not_or] using contract_iff_of_write_or_raise (execOscSetDetune_cases j d s) rfl he
  | oscSetModdepth j x => simpa using contract_iff_of_write_or_raise (execOscSetModdepth_cases j x s) rfl he
  | _ =>
    have hsame : t.err.contract = s.err.contract :=
      by_contra fun hne => by simpa using (exec_footprint he).err.contract_writers hne
    simp [hsame]

/-- Settles O16: an illegal word raises its own flag (`step_illegal`); a legal one keeps `err.illegal`
(`exec_footprint`) and treats `err.contract` as `exec_contract_iff` says. -/
theorem flagsRecordExactlyTheConditions : Obligations.FlagsRecordExactlyTheConditions := by
  unfold Obligations.FlagsRecordExactlyTheConditions
  intro s t w rest h hst
  cases hd : decode w with
  | error e =>
    obtain rfl := Host.Outcome.next.inj ((step_illegal h hd).symm.trans hst)
    simp
  | ok i =>
    have he : exec i (accept rest s) = .next t := (step_cmd h hd).symm.trans hst
    refine ⟨?illegal, ?contract⟩
    case illegal => simp [(exec_footprint he).err.illegal_eq]
    case contract => simpa using exec_contract_iff he

/-- No step but a reset clears a flag (R217). -/
theorem step_keeps_flags {s t : State} (hrst : s.cmdPort.head? ≠ some .rst) (hst : step s = .next t) :
    (s.err.illegal = true → t.err.illegal = true) ∧ (s.err.contract = true → t.err.contract = true) := by
  cases hport : s.cmdPort with
  | nil =>
    obtain rfl := Host.Outcome.next.inj ((step_nil hport).symm.trans hst)
    exact ⟨id, id⟩
  | cons x rest =>
    cases x with
    | rst => exact absurd (congrArg List.head? hport) hrst
    | cmd w =>
      obtain ⟨hillegal, hcontract⟩ := flagsRecordExactlyTheConditions s t w rest hport hst
      exact ⟨fun h => hillegal.2 (.inl h), fun h => hcontract.2 (.inl h)⟩

/-- The inputs of `n + 1` steps are that of the first and those of the `n` after it. -/
theorem rst_not_mem_take_succ {l : List HostInput} {n : Nat} (h : HostInput.rst ∉ l.take (n + 1)) :
    l.head? ≠ some .rst ∧ HostInput.rst ∉ l.tail.take n := by
  cases l with
  | nil => simp
  | cons x rest => simpa [eq_comm] using h

/-- Settles O17, by induction on the number of steps: each takes one input (`step_next_cmdPort`), which is no reset,
and so keeps the flags (`step_keeps_flags`). -/
theorem flagsAreStickyOverRuns : Obligations.FlagsAreStickyOverRuns := by
  unfold Obligations.FlagsAreStickyOverRuns
  intro n
  induction n with
  | zero =>
    intro s t _ hrun
    obtain rfl := Host.Outcome.next.inj hrun
    exact ⟨id, id⟩
  | succ n ih =>
    intro s t hrst hrun
    obtain ⟨hhead, htail⟩ := rst_not_mem_take_succ hrst
    obtain ⟨u, hsu, hport⟩ := step_next_cmdPort s
    obtain ⟨hillegal, hcontract⟩ := step_keeps_flags hhead hsu
    have hrest : runSteps n u = .next t := (runSteps_succ_of_step hsu n).symm.trans hrun
    obtain ⟨hillegalRest, hcontractRest⟩ := ih u t (hport ▸ htail) hrest
    exact ⟨hillegalRest ∘ hillegal, hcontractRest ∘ hcontract⟩

end Sys2Proof.Machine
end
